-- ==== Sys2Proof/Word.lean ====
section
/-! DEFINITION. The word types of SYNTH-CORE (00_scope R11 `W_PORT`, 30_encoding R170, 10_state R45). -/

namespace Sys2Proof

/-- A port word: every input latch, output register and table entry is 16 bits (R11 `W_PORT`, R123). -/
abbrev Word := BitVec 16

/-- A byte of a byte-serial host bus (R126). Nothing inside the block is a byte. -/
abbrev Byte := BitVec 8

/-- A host register (R45 to R49). -/
abbrev HostWord := BitVec 32

/-- A command word (R171). -/
abbrev CmdWord := BitVec 64

end Sys2Proof
end

