-- ==== Sys2Proof/Syntax.lean ====
section
/-! DEFINITION. The instructions of SYNTH-CORE: one constructor per row of spec/opcode_table.json (30_encoding R172, R179, R181). -/

namespace Sys2Proof

/-- The eight Q formats of a NUM descriptor, in the order of their codes (30_encoding R178). -/
inductive Fmt where
  | q1_7
  | q8_0
  | q16_0
  | q1_15
  | q8_8
  | q1_31
  | q16_15
  | q32_0
  deriving DecidableEq, Repr

/-- The operations. CMD rows carry the fields of the command word (R171, R173); NUM rows carry their format codes
(R177); DISP rows have no field (R181): the node they act on is an operand port of the issuing engine (log 5). -/
inductive Instr where
  -- CMD (R172): commands of the control channel
  | setEnvAttackFor (node : BitVec 8) (v : Word)
  | setEnvAttackTo (node : BitVec 8) (v : Word)
  | setEnvDecayFor (node : BitVec 8) (v : Word)
  | setEnvSustainAt (node : BitVec 8) (v : Word)
  | setEnvReleaseFor (node : BitVec 8) (v : Word)
  | setPattern (node : BitVec 8) (elem : BitVec 8) (b : Bool)
  | setGatelen (node : BitVec 8) (elem : BitVec 8) (v : Word)
  | setOscFreq (node : BitVec 8) (v : Word)
  | setOscScale (node : BitVec 8) (v : Word)
  | loadWave (node : BitVec 8) (h : BitVec 32)
  -- NUM (R179): operations of the numeric unit
  | fxRaw (fa : Fmt)
  | fxMul (fa fb : Fmt)
  | fxConvQ88Q80
  | fxConvQ88Q17
  | fxConv (fa fb : Fmt)
  | fxSadd (fa fb : Fmt)
  | fxRecip (fa : Fmt)
  -- DISP (R181): operations of the engine and of the nodes
  | engValidate
  | engIterate
  | engPropagate
  | engEmit
  | engDrain
  | envStep
  | envTick
  | oscStep
  | oscTick
  | seqStep
  | seqTick
  | vcaStep
  | vcaTick
  | mixStep
  | mixTick
  | revStep
  | revTick
  deriving DecidableEq, Repr

end Sys2Proof
end

