-- ==== Sys2Proof/WellFormed.lean ====
section
/-! DEFINITION. Which terms of `Instr` an encoding spells (30_encoding R179, R180). -/

namespace Sys2Proof

/-- R179: the generic FX.CONV has FA ≠ FB and is not one of the two pairs that have a row of their own. -/
def convPairOk (fa fb : Fmt) : Bool :=
  decide (fa ≠ fb) && !decide (fa = .q8_8 ∧ fb = .q8_0) && !decide (fa = .q8_8 ∧ fb = .q1_7)

/-- R179: FX.RECIP takes an integer format, Q8.0, Q16.0 or Q32.0. -/
def recipFmtOk : Fmt → Bool
  | .q8_0 => true
  | .q16_0 => true
  | .q32_0 => true
  | .q1_7 => false
  | .q1_15 => false
  | .q8_8 => false
  | .q1_31 => false
  | .q16_15 => false

/-- R179, R180: only FX.CONV, FX.SADD and FX.RECIP constrain their fields. An ELEM above 15 is well formed: the
command is refused its effect when it is applied (47_commands R486), not when it is decoded. -/
def Instr.wf : Instr → Bool
  | .fxConv fa fb => convPairOk fa fb
  | .fxSadd fa fb => decide (fa = fb)
  | .fxRecip fa => recipFmtOk fa
  | .setEnvAttackFor _ _ => true
  | .setEnvAttackTo _ _ => true
  | .setEnvDecayFor _ _ => true
  | .setEnvSustainAt _ _ => true
  | .setEnvReleaseFor _ _ => true
  | .setPattern _ _ _ => true
  | .setGatelen _ _ _ => true
  | .setOscFreq _ _ => true
  | .setOscScale _ _ => true
  | .loadWave _ _ => true
  | .fxRaw _ => true
  | .fxMul _ _ => true
  | .fxConvQ88Q80 => true
  | .fxConvQ88Q17 => true
  | .engValidate => true
  | .engIterate => true
  | .engPropagate => true
  | .engEmit => true
  | .engDrain => true
  | .envStep => true
  | .envTick => true
  | .oscStep => true
  | .oscTick => true
  | .seqStep => true
  | .seqTick => true
  | .vcaStep => true
  | .vcaTick => true
  | .mixStep => true
  | .mixTick => true
  | .revStep => true
  | .revTick => true

end Sys2Proof
end

