-- ==== Sys2Proof/Decode.lean ====
section
/-! DEFINITION. The three encoded formats: field extraction, decoding, encoding, byte order (30_encoding R170 to R181, 20_memory R126). -/

namespace Sys2Proof

/-- One encoded operation, tagged by the path it arrives on: the path alone tells the format and the length (R170). -/
inductive Item where
  /-- a 64-bit word of the command port -/
  | cmd (w : CmdWord)
  /-- a 32-bit descriptor of the numeric unit -/
  | num (d : BitVec 32)
  /-- an 8-bit dispatch code -/
  | disp (c : BitVec 8)
  deriving DecidableEq, Repr

/-- Why a bit pattern spells no operation. -/
inductive DecodeError where
  /-- CMD: the opcode is unassigned (R175); the command is discarded with ERR.BAD_OPCODE -/
  | badOpcode
  /-- CMD: a must-be-zero bit is set (R174); the command is discarded with ERR.RESERVED -/
  | reservedBits
  /-- NUM: the descriptor breaks R177 or R179 (R180); the model refuses it -/
  | reservedNum
  /-- DISP: a reserved code (R181), never issued; the model refuses it (log 32) -/
  | reservedDisp
  deriving DecidableEq, Repr

/-! ### CMD (R171 to R174) -/

/-- R171 `OP`, bits 63..56. -/
def cmdOp (w : CmdWord) : BitVec 8 := w.extractLsb' 56 8
/-- R171 `NODE`, bits 55..48. -/
def cmdNode (w : CmdWord) : BitVec 8 := w.extractLsb' 48 8
/-- R171 `ELEM`, bits 47..40. -/
def cmdElem (w : CmdWord) : BitVec 8 := w.extractLsb' 40 8
/-- R171 `PAYLOAD`, bits 31..0. -/
def cmdPayload (w : CmdWord) : BitVec 32 := w.extractLsb' 0 32
/-- R173: `v16 = PAYLOAD[15:0]`, stored as it is. -/
def cmdV16 (w : CmdWord) : Word := w.extractLsb' 0 16
/-- R173: the bit of SET_PATTERN, `PAYLOAD[0]`. -/
def cmdBit (w : CmdWord) : Bool := w.getLsbD 0

/-- R174, first row: ELEM, RSV and PAYLOAD[31:16]. -/
def mbzScalar : CmdWord := 0x0000FFFFFFFF0000#64
/-- R174, SET_PATTERN: RSV and PAYLOAD[31:1]. -/
def mbzPattern : CmdWord := 0x000000FFFFFFFFFE#64
/-- R174, SET_GATELEN: RSV and PAYLOAD[31:16]. -/
def mbzGatelen : CmdWord := 0x000000FFFFFF0000#64
/-- R174, LOAD_WAVE: ELEM and RSV. -/
def mbzLoad : CmdWord := 0x0000FFFF00000000#64

/-- The opcode map R172 with each opcode's must-be-zero mask (R174) and operand assembly (R173); `none` for an
unassigned opcode (R175). -/
def cmdRow (w : CmdWord) : Option (CmdWord × Instr) :=
  match (cmdOp w).toNat with
  | 0x01 => some (mbzScalar, .setEnvAttackFor (cmdNode w) (cmdV16 w))
  | 0x02 => some (mbzScalar, .setEnvAttackTo (cmdNode w) (cmdV16 w))
  | 0x03 => some (mbzScalar, .setEnvDecayFor (cmdNode w) (cmdV16 w))
  | 0x04 => some (mbzScalar, .setEnvSustainAt (cmdNode w) (cmdV16 w))
  | 0x05 => some (mbzScalar, .setEnvReleaseFor (cmdNode w) (cmdV16 w))
  | 0x10 => some (mbzPattern, .setPattern (cmdNode w) (cmdElem w) (cmdBit w))
  | 0x11 => some (mbzGatelen, .setGatelen (cmdNode w) (cmdElem w) (cmdV16 w))
  | 0x20 => some (mbzScalar, .setOscFreq (cmdNode w) (cmdV16 w))
  | 0x21 => some (mbzScalar, .setOscScale (cmdNode w) (cmdV16 w))
  | 0x30 => some (mbzLoad, .loadWave (cmdNode w) (cmdPayload w))
  | _ => none

/-- R176, the first two checks in their order: the opcode, then the reserved bits. -/
def decodeCmd (w : CmdWord) : Except DecodeError Instr :=
  match cmdRow w with
  | none => .error .badOpcode
  | some (m, i) => if w &&& m = 0 then .ok i else .error .reservedBits

/-! ### NUM (R177 to R180) -/

/-- R178: the format of a code; codes 8 to 15 are reserved. -/
def fmtOfCode : Nat → Option Fmt
  | 0 => some .q1_7
  | 1 => some .q8_0
  | 2 => some .q16_0
  | 3 => some .q1_15
  | 4 => some .q8_8
  | 5 => some .q1_31
  | 6 => some .q16_15
  | 7 => some .q32_0
  | _ => none

/-- R178: the code of a format. -/
def codeOfFmt : Fmt → BitVec 4
  | .q1_7 => 0
  | .q8_0 => 1
  | .q16_0 => 2
  | .q1_15 => 3
  | .q8_8 => 4
  | .q1_31 => 5
  | .q16_15 => 6
  | .q32_0 => 7

/-- R177 `FOP`, bits 31..28. -/
def numFop (d : BitVec 32) : BitVec 4 := d.extractLsb' 28 4
/-- R177 `FA`, bits 27..24. -/
def numFa (d : BitVec 32) : BitVec 4 := d.extractLsb' 24 4
/-- R177 `FB`, bits 23..20. -/
def numFb (d : BitVec 32) : BitVec 4 := d.extractLsb' 20 4
/-- R177, bits 19..0, which must be 0. -/
def numLow (d : BitVec 32) : BitVec 20 := d.extractLsb' 0 20

/-- R179: FX.CONV's two special pairs select a row of their own. -/
def convRow (fa fb : Fmt) : Instr :=
  if fa = .q8_8 ∧ fb = .q8_0 then .fxConvQ88Q80
  else if fa = .q8_8 ∧ fb = .q1_7 then .fxConvQ88Q17
  else .fxConv fa fb

/-- R177, R179: the operation a descriptor's fields name, before the constraints R179 puts on the formats. -/
def numRow (d : BitVec 32) : Option Instr :=
  match (numFop d).toNat with
  | 0 => if numFb d = 0 then (fmtOfCode (numFa d).toNat).map .fxRaw else none
  | 1 => (fmtOfCode (numFa d).toNat).bind fun fa => (fmtOfCode (numFb d).toNat).map fun fb => .fxMul fa fb
  | 2 => (fmtOfCode (numFa d).toNat).bind fun fa => (fmtOfCode (numFb d).toNat).map fun fb => convRow fa fb
  | 3 => (fmtOfCode (numFa d).toNat).bind fun fa => (fmtOfCode (numFb d).toNat).map fun fb => .fxSadd fa fb
  | 4 => if numFb d = 0 then (fmtOfCode (numFa d).toNat).map .fxRecip else none
  | _ => none

/-- R180: a descriptor that breaks R177 or R179 spells no operation. -/
def decodeNum (d : BitVec 32) : Except DecodeError Instr :=
  match numRow d with
  | none => .error .reservedNum
  | some i => if numLow d = 0 ∧ i.wf = true then .ok i else .error .reservedNum

/-! ### DISP (R181) -/

/-- R181: the dispatch map. -/
def decodeDisp (c : BitVec 8) : Except DecodeError Instr :=
  match c.toNat with
  | 0x00 => .ok .engValidate
  | 0x01 => .ok .engIterate
  | 0x02 => .ok .engPropagate
  | 0x03 => .ok .engEmit
  | 0x04 => .ok .engDrain
  | 0x10 => .ok .envStep
  | 0x11 => .ok .envTick
  | 0x20 => .ok .oscStep
  | 0x21 => .ok .oscTick
  | 0x30 => .ok .seqStep
  | 0x31 => .ok .seqTick
  | 0x40 => .ok .vcaStep
  | 0x41 => .ok .vcaTick
  | 0x50 => .ok .mixStep
  | 0x51 => .ok .mixTick
  | 0x60 => .ok .revStep
  | 0x61 => .ok .revTick
  | _ => .error .reservedDisp

/-- The decoder: total on every item; no mode and no length is read from the bits (R170, R182). -/
def decode : Item → Except DecodeError Instr
  | .cmd w => decodeCmd w
  | .num d => decodeNum d
  | .disp c => decodeDisp c

/-! ### The encoder, written from the same tables -/

/-- R171: the CMD word `{OP, NODE, ELEM, RSV = 0, PAYLOAD}`. -/
def encodeCmd (op node elem : BitVec 8) (payload : BitVec 32) : CmdWord :=
  op ++ node ++ elem ++ (0 : BitVec 8) ++ payload

/-- R177: the NUM descriptor `{FOP, FA, FB, 0}`. -/
def encodeNum (fop fa fb : BitVec 4) : BitVec 32 :=
  fop ++ fa ++ fb ++ (0 : BitVec 20)

/-- The item of an instruction (R171 to R181). -/
def encode : Instr → Item
  | .setEnvAttackFor n v => .cmd (encodeCmd 0x01 n 0 (v.setWidth 32))
  | .setEnvAttackTo n v => .cmd (encodeCmd 0x02 n 0 (v.setWidth 32))
  | .setEnvDecayFor n v => .cmd (encodeCmd 0x03 n 0 (v.setWidth 32))
  | .setEnvSustainAt n v => .cmd (encodeCmd 0x04 n 0 (v.setWidth 32))
  | .setEnvReleaseFor n v => .cmd (encodeCmd 0x05 n 0 (v.setWidth 32))
  | .setPattern n e b => .cmd (encodeCmd 0x10 n e ((BitVec.ofBool b).setWidth 32))
  | .setGatelen n e v => .cmd (encodeCmd 0x11 n e (v.setWidth 32))
  | .setOscFreq n v => .cmd (encodeCmd 0x20 n 0 (v.setWidth 32))
  | .setOscScale n v => .cmd (encodeCmd 0x21 n 0 (v.setWidth 32))
  | .loadWave n h => .cmd (encodeCmd 0x30 n 0 h)
  | .fxRaw fa => .num (encodeNum 0 (codeOfFmt fa) 0)
  | .fxMul fa fb => .num (encodeNum 1 (codeOfFmt fa) (codeOfFmt fb))
  | .fxConvQ88Q80 => .num (encodeNum 2 4 1)
  | .fxConvQ88Q17 => .num (encodeNum 2 4 0)
  | .fxConv fa fb => .num (encodeNum 2 (codeOfFmt fa) (codeOfFmt fb))
  | .fxSadd fa fb => .num (encodeNum 3 (codeOfFmt fa) (codeOfFmt fb))
  | .fxRecip fa => .num (encodeNum 4 (codeOfFmt fa) 0)
  | .engValidate => .disp 0x00
  | .engIterate => .disp 0x01
  | .engPropagate => .disp 0x02
  | .engEmit => .disp 0x03
  | .engDrain => .disp 0x04
  | .envStep => .disp 0x10
  | .envTick => .disp 0x11
  | .oscStep => .disp 0x20
  | .oscTick => .disp 0x21
  | .seqStep => .disp 0x30
  | .seqTick => .disp 0x31
  | .vcaStep => .disp 0x40
  | .vcaTick => .disp 0x41
  | .mixStep => .disp 0x50
  | .mixTick => .disp 0x51
  | .revStep => .disp 0x60
  | .revTick => .disp 0x61

/-! ### Byte order (R126) -/

/-- R126: byte j of a word carries bits [8j+7:8j]. -/
def bytesOfNat (n w : Nat) : List Byte :=
  (List.range n).map fun j => BitVec.ofNat 8 (w >>> (8 * j))

/-- R126: the number whose byte j is entry j. -/
def natOfBytes : List Byte → Nat
  | [] => 0
  | b :: bs => b.toNat + 256 * natOfBytes bs

/-- The item laid out in the given bytes, first byte at the lowest address: 8 bytes are a CMD word, 4 a NUM
descriptor, 1 a DISP code (R170). -/
def itemOfBytes (bs : List Byte) : Option Item :=
  match bs.length with
  | 1 => some (.disp (BitVec.ofNat 8 (natOfBytes bs)))
  | 4 => some (.num (BitVec.ofNat 32 (natOfBytes bs)))
  | 8 => some (.cmd (BitVec.ofNat 64 (natOfBytes bs)))
  | _ => none

/-- The bytes of an item on a byte-serial path (R126). -/
def bytesOfItem : Item → List Byte
  | .cmd w => bytesOfNat 8 w.toNat
  | .num d => bytesOfNat 4 d.toNat
  | .disp c => bytesOfNat 1 c.toNat

/-- The item of a row of spec/opcode_table.json: `nbits` bits of `w`, laid out little-endian. -/
def itemOfTable (nbits w : Nat) : Option Item :=
  itemOfBytes (bytesOfNat (nbits / 8) w)

/-- The instruction the decoder reads from `nbits` bits of `w`, numbered as spec/opcode_table.json numbers them. -/
def decodeTableWord (nbits w : Nat) : Option Instr :=
  match itemOfTable nbits w with
  | none => none
  | some it => (decode it).toOption

end Sys2Proof
end

