-- ==== Sys2Proof/Config.lean ====
section
/-! DEFINITION. The configuration of a session (10_state R40, R58; 00_scope R11) and the values no rule fixes, as opaque constants. -/

namespace Sys2Proof

/-- R22: the six kinds of node. -/
inductive Kind where
  | env
  | osc
  | seq
  | vca
  | mix
  | rev
  deriving DecidableEq, Repr

/-- R54: the waveforms, in the order of their encodings. -/
inductive Wave where
  | sine
  | saw
  | triangle
  | square
  | whiteNoise
  | custom
  deriving DecidableEq, Repr

/-- R58, R440: a configured `wave0`: one of the six waveforms, or a name that is none of them. -/
inductive WaveName where
  | known (w : Wave)
  | unknown (name : String)
  deriving DecidableEq, Repr

/-- R58: one delay tap of a REV node: its length in entries and its Q1.15 gain. -/
structure TapCfg where
  len : Nat
  gain : Word
  deriving DecidableEq, Repr

/-- R58: the kind of a node with its kind-specific configuration `kcfg`. -/
inductive KCfg where
  | env
  | osc (wave0 : WaveName)
  | seq (pattern0 : BitVec 16) (gatelen0 : List Word)
  | vca
  | mix
  | rev (taps : List TapCfg)
  deriving DecidableEq, Repr

/-- R40 (a): one entry of `NODES`. `initIn` maps input-port names to words; an absent name is 0. -/
structure NodeCfg where
  name : String
  kcfg : KCfg
  initIn : List (String × Word)
  deriving DecidableEq, Repr

/-- R40: a node name with a port name. -/
structure PortName where
  node : String
  port : String
  deriving DecidableEq, Repr

/-- R40 (b): one wire. -/
structure WireCfg where
  src : PortName
  dst : PortName
  deriving DecidableEq, Repr

/-- R11 `ENV_RETRIG` (R293). -/
inductive Retrig where
  | hold
  | ignore
  deriving DecidableEq, Repr

/-- R11 `ENV_RAMP_DIV` (R295): truncating division, or some other total function, chosen by a number. -/
inductive RampDiv where
  | tdiv
  | other (k : Nat)
  deriving DecidableEq, Repr

/-- R11 `VCA_NARROW` (R400). -/
inductive Narrow where
  | wrap
  | sat
  deriving DecidableEq, Repr

/-- R123: the shared read-only tables. The five wavetables hold N_TABLE words; INC_ROM holds 128 unsigned
W_PHASE-bit numbers (R124). -/
structure Roms where
  sine : List Word
  saw : List Word
  tri : List Word
  square : List Word
  noise : List Word
  inc : List Nat
  deriving DecidableEq, Repr

/-- R40 and R11: everything fixed from reset to halt. -/
structure Config where
  /-- R40 (a) -/
  nodes : List NodeCfg
  /-- R40 (b) -/
  wires : List WireCfg
  /-- R40 (c) -/
  output : PortName
  /-- R40 (d) -/
  tickPeriod : BitVec 32
  /-- R11 `W_PHASE` -/
  wPhase : Nat
  /-- R11 `TABLE_BITS` -/
  tableBits : Nat
  /-- R11 `SAMPLE_RATE`, in Hz, above 0: read by no rule, it enters the recommended INC_ROM alone (R338, R600; log 2) -/
  sampleRate : Nat
  /-- R11, R123 -/
  roms : Roms
  /-- R11 `ENV_RETRIG` -/
  retrig : Retrig
  /-- R11 `ENV_RAMP_DIV` -/
  rampDiv : RampDiv
  /-- R11 `VCA_NARROW` -/
  narrow : Narrow
  /-- R11 `BUFFER_LEN` -/
  bufferLen : Nat
  /-- R130 `HOST_BASE` -/
  hostBase : Nat
  deriving DecidableEq, Repr

/-- R496: WSRC's answer to a handle: a failure, or a finite list of samples. -/
inductive WaveAnswer where
  | fail
  | samples (r : List Word)
  deriving DecidableEq, Repr

/-! Values no rule fixes. None has a body that a proof could use. -/

/-- R341: entry i of NOISE_ROM, a free draw fixed before reset (log 2). -/
opaque Config.noiseWord : Nat → Word

/-- R456: the n-th value drawn for EXEC_TIME (log 8). -/
opaque Config.execTimeDraw : Nat → HostWord

/-- R11 `BUFFER_LEN` is OPEN and at least 1: this constant is one less (log 10). -/
opaque Config.bufferLenPred : Nat

/-- R130 `HOST_BASE` is OPEN (log 10). -/
opaque Config.hostBaseOpen : Nat

/-- R11 `ENV_RAMP_DIV`: the k-th total function of a numerator and a positive denominator (log 11). -/
opaque Config.rampDivFn : Nat → Int → Nat → Int

/-- R496: whether the n-th drawn answer to handle h is a failure (log 7). -/
opaque Config.wsrcFails : Nat → BitVec 32 → Bool

/-- R496: the samples of the n-th drawn answer to handle h, when it is not a failure (log 7). -/
opaque Config.wsrcSamples : Nat → BitVec 32 → List Word

end Sys2Proof
end

