-- ==== Sys2Proof/Machine/Arith.lean ====
section
/-! DEFINITION. Notation of the pseudocode: readings, shifts, divisions, truncation and saturation (00_scope R13 to R18), and MULQ15 (40_numeric R229). -/

namespace Sys2Proof.Machine

/-- R13: the signed reading of a port word. -/
def s16 (x : Word) : Int := x.toInt

/-- R13: the unsigned reading of a port word. -/
def u16 (x : Word) : Nat := x.toNat

/-- R14: `a >> k`, floor of a / 2^k. -/
def asr (a : Int) (k : Nat) : Int := a / 2 ^ k

/-- R15: division truncating toward zero. -/
def truncDiv (a : Int) (b : Nat) : Int := Int.tdiv a b

/-- R15: `clamp(v, lo, hi)`. -/
def clamp (v lo hi : Int) : Int := if v < lo then lo else if hi < v then hi else v

/-- R16: `trunc_16`. -/
def trunc16 (v : Int) : Word := BitVec.ofInt 16 v

/-- R16: `sat_16`. -/
def sat16 (v : Int) : Word := BitVec.ofInt 16 (clamp v (-32768) 32767)

/-- R16: `trunc_W(v)` for a width up to 64, held in the low W bits of a 64-bit word with zeros above (log 24). -/
def truncTo (w : Nat) (v : Int) : BitVec 64 := BitVec.ofNat 64 (v % 2 ^ w).toNat

/-- R16: `sat_W(v)`, held as `truncTo` holds it. -/
def satTo (w : Nat) (v : Int) : BitVec 64 := truncTo w (clamp v (-(2 ^ (w - 1))) (2 ^ (w - 1) - 1))

/-- R13: `s(x)` of the W-bit word in the low bits of an operand port (log 24). -/
def sread (w : Nat) (x : BitVec 32) : Int := (x.setWidth w).toInt

/-- R229: `MULQ15(a, b) = (s16(a) · s16(b)) >> 15`, exact. -/
def mulq15 (a b : Word) : Int := asr (s16 a * s16 b) 15

/-- R11: the thresholds and levels. -/
def tHigh : Int := 24576
/-- R11. -/
def tLow : Int := 8192
/-- R11. -/
def highLevel : Word := 0x7FFF

/-- R11 `N_TABLE`. -/
def nTable (c : Config) : Nat := 2 ^ c.tableBits

/-- R18, R178: the total width W of a format. -/
def fmtWidth : Fmt → Nat
  | .q1_7 => 8
  | .q8_0 => 8
  | .q16_0 => 16
  | .q1_15 => 16
  | .q8_8 => 16
  | .q1_31 => 32
  | .q16_15 => 32
  | .q32_0 => 32

/-- R18, R178: the fraction bits F of a format. -/
def fmtFrac : Fmt → Nat
  | .q1_7 => 7
  | .q8_0 => 0
  | .q16_0 => 0
  | .q1_15 => 15
  | .q8_8 => 8
  | .q1_31 => 31
  | .q16_15 => 15
  | .q32_0 => 0

/-- R11, R295: `ENV_RAMP_DIV` of a numerator and a positive denominator. -/
def rampDiv (c : Config) (num : Int) (den : Nat) : Int :=
  match c.rampDiv with
  | .tdiv => truncDiv num den
  | .other k => Config.rampDivFn k num den

end Sys2Proof.Machine
end

