-- ==== Sys2Proof/Machine/Node.lean ====
section
/-! DEFINITION. Nodes: port tables (10_state R52), private fields (R53 to R57), entry-addressed memories (20_memory R123), port access (41_component R260, R261), construction (70_reset R580 (3)). -/

namespace Sys2Proof.Machine

/-! ### Entry-addressed memories (R123) -/

/-- R123: a memory of 16-bit entries. It has no bytes; a memory of N entries is a list of N words. -/
abbrev Memory := List Word

/-- R123: `MemRead(M, i)`. Every index the rules compute is in range (R125); beyond it the model reads 0 (log 19). -/
def memRead (m : Memory) (i : Nat) : Word := m.getD i 0

/-- R123: `MemWrite(M, i, v)`. -/
def memWrite (m : Memory) (i : Nat) (v : Word) : Memory := m.set i v

/-- R123: the memory has its `n` entries, which is the one form a memory of n entries has. -/
abbrev Memory.wf (n : Nat) (m : Memory) : Prop := m.length = n

/-- R123 `PATTERN`, read: bit i is step i (R56). -/
def patRead (p : BitVec 16) (i : Nat) : Bool := p.getLsbD i

/-- R123 `PATTERN`, write: entry i becomes b. -/
def patWrite (p : BitVec 16) (i : Nat) (b : Bool) : BitVec 16 :=
  if b then p ||| (1#16 <<< i) else p &&& ~~~(1#16 <<< i)

/-! ### Port tables (R52) -/

/-- R52: the input-port names of a kind, in index order. -/
def inPorts : Kind → List String
  | .env => ["attack_for", "attack_to", "decay_for", "sustain_at", "release_for", "trigger", "gate"]
  | .osc => ["freq", "mod", "mod_depth"]
  | .seq => []
  | .vca => ["amp_cv", "in_cv"]
  | .mix => ["in1", "level1", "in2", "level2"]
  | .rev => ["in"]

/-- R52: the output-port names of a kind, in index order. -/
def outPorts : Kind → List String
  | .env => ["out"]
  | .osc => ["out"]
  | .seq => ["gate", "trigger"]
  | .vca => ["out"]
  | .mix => ["out"]
  | .rev => ["out"]

/-- R187, R263: a port reference: an index, or `none` for the null port. -/
abbrev PortRef := Option Nat

/-- R187: the reference a name resolves to among the given ports; names are case-sensitive (R262). -/
def portRef (ports : List String) (name : String) : PortRef := ports.findIdx? (· == name)

/-! ### Private fields -/

/-- R53: the states of an ENV node, in the order of their encodings. -/
inductive EnvState where
  | off
  | attack
  | decay
  | sustain
  | release
  deriving DecidableEq, Repr

/-- R53: the private fields of an ENV node. -/
structure EnvSt where
  state : EnvState
  counter : BitVec 16
  trigArmed : Bool
  gateOpen : Bool
  deriving DecidableEq, Repr

/-- R54: the private fields of an OSC node. `phase` is a W_PHASE-bit unsigned number, below 2^W_PHASE (log 19). -/
structure OscSt where
  phase : Nat
  wave : Wave
  custom : Memory
  deriving DecidableEq, Repr

/-- R56: the private fields of a SEQ node. -/
structure SeqSt where
  beat : BitVec 4
  elapsed : BitVec 16
  gateR : Bool
  trigR : Bool
  pattern : BitVec 16
  gatelen : Memory
  deriving DecidableEq, Repr

/-- R57: one tap of a REV node; its length and gain are configuration (R58). -/
structure TapSt where
  buf : Memory
  pos : Nat
  deriving DecidableEq, Repr

/-- R53 to R57: the private fields of a node, by kind. -/
inductive Body where
  | env (e : EnvSt)
  | osc (o : OscSt)
  | seq (q : SeqSt)
  | vca
  | mix
  | rev (taps : List TapSt)
  deriving DecidableEq, Repr

/-- R51: a node: its input latches and output registers by port index, and its private fields. -/
structure Node where
  ins : List Word
  outs : List Word
  body : Body
  deriving DecidableEq, Repr

/-- R51: the kind of a node. -/
def nodeKind (n : Node) : Kind :=
  match n.body with
  | .env _ => .env
  | .osc _ => .osc
  | .seq _ => .seq
  | .vca => .vca
  | .mix => .mix
  | .rev _ => .rev

/-- R17: `n.in[p]`. -/
def inp (n : Node) (p : Nat) : Word := n.ins.getD p 0

/-- R17: `n.out[p]`. -/
def outp (n : Node) (p : Nat) : Word := n.outs.getD p 0

/-- R17: `n.in[p] <- v`. -/
def setIn (n : Node) (p : Nat) (v : Word) : Node := { n with ins := n.ins.set p v }

/-- R17: `n.out[p] <- v`. -/
def setOut (n : Node) (p : Nat) (v : Word) : Node := { n with outs := n.outs.set p v }

/-- R260: READPORT through a resolved reference: an output register, or 0 for the null port (R263). -/
def readPort (n : Node) (p : PortRef) : Word :=
  match p with
  | none => 0
  | some i => outp n i

/-- R261: WRITEPORT through a resolved reference: an input latch, or nothing for the null port (R263). -/
def writePort (n : Node) (p : PortRef) (v : Word) : Node :=
  match p with
  | none => n
  | some i => setIn n i v

/-- R260 by name: READPORT sees only output ports. -/
def readPortNamed (n : Node) (name : String) : Word := readPort n (portRef (outPorts (nodeKind n)) name)

/-- R261 by name: WRITEPORT sees only input ports. -/
def writePortNamed (n : Node) (name : String) (v : Word) : Node :=
  writePort n (portRef (inPorts (nodeKind n)) name) v

/-! ### Construction (R580 (3)) -/

/-- R58: the kind a kind-specific configuration is for. -/
def kcfgKind : KCfg → Kind
  | .env => .env
  | .osc _ => .osc
  | .seq _ _ => .seq
  | .vca => .vca
  | .mix => .mix
  | .rev _ => .rev

/-- R40 (a): the value `init_in` gives a port name; an absent name is 0. Where a name stood twice the first entry
would count (log 18). -/
def initValue (m : List (String × Word)) (name : String) : Word := (m.lookup name).getD 0

/-- R52, R441: the reset value of every input latch of a node; a name that is no input port is not looked up. -/
def initLatches (nc : NodeCfg) : List Word := (inPorts (kcfgKind nc.kcfg)).map (initValue nc.initIn)

/-- R54: the wave a configured name selects; a name outside the six is rejected before any node is built (R440), and
the model gives it Sine (log 23). -/
def waveOfName : WaveName → Wave
  | .known w => w
  | .unknown _ => .sine

/-- R56, R58: `gatelen0` as 16 entries; absent entries are 0. -/
def gatelenEntries (g : List Word) : Memory := (List.range 16).map fun i => g.getD i 0

/-- R53 to R57: the reset values of the private fields. -/
def initBody (c : Config) : KCfg → Body
  | .env => .env { state := .off, counter := 0, trigArmed := false, gateOpen := false }
  | .osc w => .osc { phase := 0, wave := waveOfName w, custom := List.replicate (nTable c) 0 }
  | .seq p g =>
    .seq { beat := 15, elapsed := 0, gateR := false, trigR := false, pattern := p, gatelen := gatelenEntries g }
  | .vca => .vca
  | .mix => .mix
  | .rev taps => .rev (taps.map fun t => { buf := List.replicate t.len 0, pos := 0 })

/-- R51, R580 (3): one node as reset builds it. -/
def buildNode (c : Config) (nc : NodeCfg) : Node :=
  { ins := initLatches nc
    outs := List.replicate (outPorts (kcfgKind nc.kcfg)).length 0
    body := initBody c nc.kcfg }

/-- R58: the taps configured for node i; none where node i is no REV node. -/
def tapsOf (c : Config) (i : Nat) : List TapCfg :=
  match c.nodes[i]? with
  | none => []
  | some nc =>
    match nc.kcfg with
    | .rev ts => ts
    | .env => []
    | .osc _ => []
    | .seq _ _ => []
    | .vca => []
    | .mix => []

/-- R46: the `beat` of the first SEQ node in registration order, if there is one. -/
def firstSeqBeat : List Node → Option (BitVec 4)
  | [] => none
  | n :: ns =>
    match n.body with
    | .seq q => some q.beat
    | .env _ => firstSeqBeat ns
    | .osc _ => firstSeqBeat ns
    | .vca => firstSeqBeat ns
    | .mix => firstSeqBeat ns
    | .rev _ => firstSeqBeat ns

/-- R46, R455: the BEAT_INDEX word for the given nodes. -/
def beatWord (ns : List Node) : HostWord :=
  match firstSeqBeat ns with
  | none => 0
  | some b => b.setWidth 32

end Sys2Proof.Machine
end

