-- ==== Sys2Proof/Machine/Roms.lean ====
section
/-! DEFINITION. The recommended ROM contents (43_oscillator R338 to R341). -/

namespace Sys2Proof.Machine

/-- R338: the recommended INC_ROM for W_PHASE = 32 and SAMPLE_RATE = 44100, 8 entries a row as in the spec. -/
def incRomValues : List Nat :=
  [796254, 843601, 893765, 946911, 1003217, 1062871, 1126073, 1193033] ++
  [1263974, 1339134, 1418763, 1503127, 1592507, 1687203, 1787529, 1893821] ++
  [2006434, 2125742, 2252146, 2386065, 2527948, 2678268, 2837526, 3006254] ++
  [3185015, 3374406, 3575058, 3787642, 4012867, 4251485, 4504291, 4772130] ++
  [5055896, 5356535, 5675051, 6012507, 6370030, 6748811, 7150117, 7575285] ++
  [8025735, 8502970, 9008582, 9544261, 10111792, 10713070, 11350103, 12025015] ++
  [12740059, 13497623, 14300233, 15150569, 16051469, 17005939, 18017165, 19088521] ++
  [20223584, 21426141, 22700205, 24050030, 25480119, 26995246, 28600467, 30301139] ++
  [32102938, 34011878, 36034330, 38177043, 40447168, 42852281, 45400411, 48100060] ++
  [50960238, 53990491, 57200933, 60602278, 64205876, 68023757, 72068660, 76354085] ++
  [80894335, 85704563, 90800821, 96200119, 101920476, 107980983, 114401866, 121204555] ++
  [128411753, 136047513, 144137319, 152708170, 161788671, 171409126, 181601643, 192400238] ++
  [203840952, 215961966, 228803732, 242409110, 256823506, 272095026, 288274639, 305416341] ++
  [323577341, 342818251, 363203285, 384800477, 407681904, 431923931, 457607465, 484818220] ++
  [513647012, 544190053, 576549277, 610832681, 647154683, 685636503, 726406571, 769600953] ++
  [815363807, 863847862, 915214929, 969636441, 1027294024, 1088380105, 1153098554, 1221665363]

/-- R339: the recommended SINE_ROM for N_TABLE = 256, signed, 16 entries a row as in the spec. -/
def sineRomValues : List Int :=
  [0, 804, 1608, 2410, 3212, 4011, 4808, 5602, 6393, 7179, 7962, 8739, 9512, 10278, 11039, 11793] ++
  [12539, 13279, 14010, 14732, 15446, 16151, 16846, 17530, 18204, 18868, 19519, 20159, 20787, 21403, 22005, 22594] ++
  [23170, 23731, 24279, 24811, 25329, 25832, 26319, 26790, 27245, 27683, 28105, 28510, 28898, 29268, 29621, 29956] ++
  [30273, 30571, 30852, 31113, 31356, 31580, 31785, 31971, 32137, 32285, 32412, 32521, 32609, 32678, 32728, 32757] ++
  [32767, 32757, 32728, 32678, 32609, 32521, 32412, 32285, 32137, 31971, 31785, 31580, 31356, 31113, 30852, 30571] ++
  [30273, 29956, 29621, 29268, 28898, 28510, 28105, 27683, 27245, 26790, 26319, 25832, 25329, 24811, 24279, 23731] ++
  [23170, 22594, 22005, 21403, 20787, 20159, 19519, 18868, 18204, 17530, 16846, 16151, 15446, 14732, 14010, 13279] ++
  [12539, 11793, 11039, 10278, 9512, 8739, 7962, 7179, 6393, 5602, 4808, 4011, 3212, 2410, 1608, 804] ++
  [0, -804, -1608, -2410, -3212, -4011, -4808, -5602, -6393, -7179, -7962, -8739, -9512, -10278, -11039, -11793] ++
  [-12539, -13279, -14010, -14732, -15446, -16151, -16846, -17530, -18204, -18868, -19519, -20159, -20787, -21403, -22005, -22594] ++
  [-23170, -23731, -24279, -24811, -25329, -25832, -26319, -26790, -27245, -27683, -28105, -28510, -28898, -29268, -29621, -29956] ++
  [-30273, -30571, -30852, -31113, -31356, -31580, -31785, -31971, -32137, -32285, -32412, -32521, -32609, -32678, -32728, -32757] ++
  [-32767, -32757, -32728, -32678, -32609, -32521, -32412, -32285, -32137, -31971, -31785, -31580, -31356, -31113, -30852, -30571] ++
  [-30273, -29956, -29621, -29268, -28898, -28510, -28105, -27683, -27245, -26790, -26319, -25832, -25329, -24811, -24279, -23731] ++
  [-23170, -22594, -22005, -21403, -20787, -20159, -19519, -18868, -18204, -17530, -16846, -16151, -15446, -14732, -14010, -13279] ++
  [-12539, -11793, -11039, -10278, -9512, -8739, -7962, -7179, -6393, -5602, -4808, -4011, -3212, -2410, -1608, -804]

/-- R339 as table words. -/
def sineRom : List Word := sineRomValues.map (BitVec.ofInt 16)

/-- R340: `SAW_ROM[i] = i · 2^(16 − TABLE_BITS) − 32768`. -/
def sawRom (tableBits : Nat) : List Word :=
  (List.range (2 ^ tableBits)).map fun i => BitVec.ofInt 16 ((i : Int) * 2 ^ (16 - tableBits) - 32768)

/-- R340: one entry of `TRI_ROM`, with slope `s = 2^(17 − TABLE_BITS)` and quarter `q = N/4`. -/
def triEntry (tableBits i : Nat) : Int :=
  let s : Int := 2 ^ (17 - tableBits)
  let q := 2 ^ tableBits / 4
  if i < q then (i : Int) * s
  else if i < 3 * q then min (65536 - (i : Int) * s) 32767
  else (i : Int) * s - 131072

/-- R340: `TRI_ROM`. -/
def triRom (tableBits : Nat) : List Word :=
  (List.range (2 ^ tableBits)).map fun i => BitVec.ofInt 16 (triEntry tableBits i)

/-- R340: `SQUARE_ROM[i]` is 32767 in the first half of the table and −32768 in the second. -/
def squareRom (tableBits : Nat) : List Word :=
  (List.range (2 ^ tableBits)).map fun i =>
    if i < 2 ^ tableBits / 2 then BitVec.ofInt 16 32767 else BitVec.ofInt 16 (-32768)

/-- R341: NOISE_ROM is a free draw: every word is an opaque constant (log 2). -/
def noiseRom (tableBits : Nat) : List Word :=
  (List.range (2 ^ tableBits)).map Config.noiseWord

/-- The ROMs that State.reset's configuration holds: the recommended contents for W_PHASE = 32 and TABLE_BITS = 8,
and a free NOISE_ROM (R338 to R341; log 2). -/
def recommendedRoms : Roms :=
  { sine := sineRom
    saw := sawRom 8
    tri := triRom 8
    square := squareRom 8
    noise := noiseRom 8
    inc := incRomValues }

end Sys2Proof.Machine
end

