-- ==== Sys2Proof/Machine/Graph.lean ====
section
/-! DEFINITION. Validation and resolution of a configuration (46_engine R440, R441), its legal ranges (00_scope R11), and the configuration State.reset takes (log 1). -/

namespace Sys2Proof.Machine

/-- R443: the reason codes of a rejected configuration. -/
inductive RejectReason where
  | tooManyNodes
  | duplicateName
  | unresolvedWireSource
  | unresolvedWireDest
  | unresolvedOutput
  | badTickPeriod
  | badTaps
  | badKcfg
  deriving DecidableEq, Repr

/-- R441: a resolved wire. -/
structure RWire where
  src : Nat
  srcPort : PortRef
  dst : Nat
  dstPort : PortRef
  deriving DecidableEq, Repr

/-- R441: the resolved graph `G`. -/
structure Graph where
  kinds : List Kind
  inits : List (List Word)
  wires : List RWire
  outNode : Nat
  outPort : PortRef
  deriving DecidableEq, Repr

/-- R187: the 0-based index of a node name. -/
def nodeIndex (c : Config) (name : String) : Option Nat := c.nodes.findIdx? (fun nc => nc.name == name)

/-- R22: the kind of the node at an index of the configuration. -/
def kindAt (c : Config) (i : Nat) : Option Kind := c.nodes[i]?.map fun nc => kcfgKind nc.kcfg

/-- R441: a source name resolves among the output ports of its node's kind. -/
def resolveOut (c : Config) (i : Nat) (port : String) : PortRef :=
  (kindAt c i).bind fun k => portRef (outPorts k) port

/-- R441: a destination name resolves among the input ports of its node's kind. -/
def resolveIn (c : Config) (i : Nat) (port : String) : PortRef :=
  (kindAt c i).bind fun k => portRef (inPorts k) port

/-- R440: whether two entries of a list of names are equal. -/
def hasDuplicate : List String → Bool
  | [] => false
  | x :: xs => xs.contains x || hasDuplicate xs

/-- R440, R441: the wires in order, each with its source node checked before its destination node. -/
def resolveWires (c : Config) : List WireCfg → Except RejectReason (List RWire)
  | [] => .ok []
  | w :: ws =>
    match nodeIndex c w.src.node, nodeIndex c w.dst.node with
    | none, _ => .error .unresolvedWireSource
    | some _, none => .error .unresolvedWireDest
    | some si, some di =>
      match resolveWires c ws with
      | .error r => .error r
      | .ok rs =>
        .ok ({ src := si, srcPort := resolveOut c si w.src.port
               dst := di, dstPort := resolveIn c di w.dst.port } :: rs)

/-- R440 BAD_TAPS: an empty tap list, or a length outside 1..65535. -/
def badTaps (nc : NodeCfg) : Bool :=
  match nc.kcfg with
  | .rev ts => ts.isEmpty || ts.any fun t => t.len == 0 || decide (65535 < t.len)
  | .env => false
  | .osc _ => false
  | .seq _ _ => false
  | .vca => false
  | .mix => false

/-- R440 BAD_KCFG: a `wave0` that is none of the six waveforms. -/
def badKcfg (nc : NodeCfg) : Bool :=
  match nc.kcfg with
  | .osc (.unknown _) => true
  | .osc (.known _) => false
  | .env => false
  | .seq _ _ => false
  | .vca => false
  | .mix => false
  | .rev _ => false

/-- R440 with R441: ENG.VALIDATE. The first failing check, in this order, names the reason. -/
def validate (c : Config) : Except RejectReason Graph :=
  if 256 < c.nodes.length then .error .tooManyNodes
  else if hasDuplicate (c.nodes.map (·.name)) then .error .duplicateName
  else
    match resolveWires c c.wires with
    | .error r => .error r
    | .ok ws =>
      match nodeIndex c c.output.node with
      | none => .error .unresolvedOutput
      | some oi =>
        if c.tickPeriod = 0 then .error .badTickPeriod
        else if c.nodes.any badTaps then .error .badTaps
        else if c.nodes.any badKcfg then .error .badKcfg
        else .ok
          { kinds := c.nodes.map fun nc => kcfgKind nc.kcfg
            inits := c.nodes.map initLatches
            wires := ws
            outNode := oi
            outPort := resolveOut c oi c.output.port }

/-- The graph of an accepted configuration; for a rejected one, which builds nothing (R443), an empty graph. -/
def graphOf (c : Config) : Graph :=
  match validate c with
  | .ok g => g
  | .error _ => { kinds := [], inits := [], wires := [], outNode := 0, outPort := none }

/-- R11: every argument is in its legal range, and every ROM has its size (R123, R124). The configuring party
supplies such values (R585); ENG.VALIDATE does not check them. -/
def legalArgs (c : Config) : Prop :=
  1 ≤ c.tableBits ∧ c.tableBits ≤ 16 ∧ 8 + c.tableBits ≤ c.wPhase ∧ c.wPhase ≤ 64 ∧ 1 ≤ c.sampleRate ∧ 1 ≤ c.bufferLen ∧
  Memory.wf (nTable c) c.roms.sine ∧ Memory.wf (nTable c) c.roms.saw ∧ Memory.wf (nTable c) c.roms.tri ∧
  Memory.wf (nTable c) c.roms.square ∧ Memory.wf (nTable c) c.roms.noise ∧
  c.roms.inc.length = 128 ∧ ∀ v ∈ c.roms.inc, v < 2 ^ c.wPhase

/-- The configuration State.reset is built from (log 1): one node of each kind in the order of R52 with nothing
configured beyond what R440 demands, no wire, a tick in every iteration, and the spec's values of R11. -/
def resetConfig : Config :=
  { nodes :=
      [ { name := "env", kcfg := .env, initIn := [] },
        { name := "osc", kcfg := .osc (.known .sine), initIn := [] },
        { name := "seq", kcfg := .seq 0 [], initIn := [] },
        { name := "vca", kcfg := .vca, initIn := [] },
        { name := "mix", kcfg := .mix, initIn := [] },
        { name := "rev", kcfg := .rev [{ len := 1, gain := 0 }], initIn := [] } ]
    wires := []
    output := { node := "osc", port := "out" }
    tickPeriod := 1
    wPhase := 32
    tableBits := 8
    sampleRate := 44100
    roms := recommendedRoms
    retrig := .hold
    rampDiv := .tdiv
    narrow := .wrap
    bufferLen := Config.bufferLenPred + 1
    hostBase := Config.hostBaseOpen }

end Sys2Proof.Machine
end

