-- ==== Sys2Proof/Machine/State.lean ====
section
/-! DEFINITION. The state of the block as plain data (10_state R40 to R61), the faults and refusals, and reset (70_reset R580, R581). -/

namespace Sys2Proof.Machine

/-- The numeric fault of R536. It is recorded in the result of the numeric unit (`FxResult.fault`): the machine goes on
(R530), and no step ever ends in it. -/
inductive Fault where
  /-- FX.RECIP of 0 (R234, R536), raised by the meaning of FX.RECIP: no value is returned and ERR.NUM_FAULT is set. Safe:
  nothing that depends on the missing value is written. -/
  | recipDivZero
  deriving DecidableEq, Repr

/-- Why a step has no next state. Each refusal is an action the spec gives no step for. -/
inductive Refusal where
  /-- An arm of `exec` without a meaning; no arm of this model answers it. Safe. -/
  | notModelled (mnemonic : String)
  /-- R180: a reserved NUM descriptor, raised when one is issued or an ill-formed FX term is run. Safe. -/
  | reservedNum
  /-- A reserved DISP code (R181), raised when one is issued. Safe: no rule issues one, and refusing it is the model's
  choice (log 32). -/
  | reservedDisp
  /-- R181, R290 and the other STEP rules: a STEP or SEQ.TICK issued on a node that is not of its kind; the engine
  never does this. Raised by those meanings. Safe (log 14). -/
  | wrongKind
  /-- R440, R443: ENG.VALIDATE rejects the configuration with the reason code. Safe: the spec gives no agent a step. -/
  | rejected (r : RejectReason)
  /-- R122: a HOST access the spec refuses, raised by the HOST access. Safe. -/
  | hostAccess
  /-- R480: a push after the close, raised by the HOST push. Safe. -/
  | pushClosed
  /-- R541: a SINK consume with no unconsumed sample. Safe. -/
  | sinkEmpty
  deriving DecidableEq, Repr

/-- R220, R536: the last result of the numeric unit: a raw word in the low `w` bits with its format (w, f), or a
fault and no value. -/
inductive FxResult where
  | none
  | value (w f : Nat) (raw : BitVec 64)
  | fault (r : Fault)
  deriving DecidableEq, Repr

/-- The operands of an internally issued operation (log 5): the node a DISP code acts on (R264, R290 and the others),
the integer of FX.RAW (R221), and the raw operand words of the other FX operations in the low bits (R220). -/
structure Operands where
  node : Nat
  k : Int
  a : BitVec 32
  b : BitVec 32
  deriving DecidableEq, Repr

/-- R122: one HOST access: a read or a write, its width in bits, its byte address, the word written, and for a read
of a register how far back in the window of R135 the value returned lies (log 9). -/
structure Access where
  write : Bool
  width : Nat
  addr : Nat
  data : BitVec 64
  age : Nat
  deriving DecidableEq, Repr

/-- R133: the atomic steps of the agents; `issue` presents one operation alone on its path (R170; log 5). -/
inductive Event where
  /-- one assertion of SAMPLE_STROBE: one ENGINE iteration (R9, R450) -/
  | strobe
  /-- one HOST access (R122) -/
  | access (a : Access)
  /-- the HOST close (R482) -/
  | close
  /-- one SINK consume (R541) -/
  | consume
  /-- one operation issued alone, with its operands -/
  | issue (it : Item) (ops : Operands)
  deriving DecidableEq, Repr

/-- R135: for each host register, the values a HOST read may return, oldest first: from the one the last read of that
register returned to the present one. -/
structure Windows where
  sampleOut : List HostWord
  beatIndex : List HostWord
  execTime : List HostWord
  err : List HostWord
  status : List HostWord
  deriving DecidableEq, Repr

/-- The whole state of the block, with its configuration (which no rule writes, R40) and the model's own fields. -/
structure State where
  /-- R40: the configuration, fixed from reset to halt -/
  cfg : Config
  /-- R441: the resolved graph -/
  graph : Graph
  /-- R42 -/
  run : Bool
  /-- R42 -/
  tickCtr : BitVec 32
  /-- R42 -/
  bufCtr : BitVec 32
  /-- R42 -/
  sampleIndex : BitVec 64
  /-- R43: oldest first -/
  cmdq : List CmdWord
  /-- R43 -/
  closed : Bool
  /-- R44: in emission order -/
  outStream : List Word
  /-- R45 -/
  sampleOut : HostWord
  /-- R46 -/
  beatIndex : HostWord
  /-- R47 -/
  execTime : HostWord
  /-- R48 -/
  err : HostWord
  /-- R51: by node index -/
  nodes : List Node
  /-- model's own: the agent actions still to come (R133; log 3) -/
  agenda : List Event
  /-- model's own: the operand ports of an issued operation (log 5) -/
  opr : Operands
  /-- model's own: the result of the numeric unit (R220; log 5) -/
  fxResult : FxResult
  /-- model's own: answers WSRC has ready (R496; log 7) -/
  wsrcAnswers : List WaveAnswer
  /-- model's own: how many free values have been drawn (log 8) -/
  draws : Nat
  /-- model's own: the windows of R135 (log 9) -/
  seen : Windows
  /-- model's own: the word the last HOST read returned (log 9) -/
  busData : BitVec 64
  /-- model's own: how many samples SINK has consumed (R44; log 17) -/
  sinkPos : Nat
  /-- model's own: the sample SINK consumed last (log 17) -/
  sinkData : Word
  deriving DecidableEq, Repr

/-- R580 (2) to (5), R581: the state reset builds from a configuration whose graph is `g`. -/
def State.initial (c : Config) (g : Graph) : State :=
  { cfg := c
    graph := g
    run := true
    tickCtr := 0
    bufCtr := 0
    sampleIndex := 0
    cmdq := []
    closed := false
    outStream := []
    sampleOut := 0
    beatIndex := beatWord (c.nodes.map (buildNode c))
    execTime := 0
    err := 0
    nodes := c.nodes.map (buildNode c)
    agenda := []
    opr := { node := 0, k := 0, a := 0, b := 0 }
    fxResult := .none
    wsrcAnswers := []
    draws := 0
    seen :=
      { sampleOut := [0]
        beatIndex := [beatWord (c.nodes.map (buildNode c))]
        execTime := [0]
        err := [0]
        status := [5] }
    busData := 0
    sinkPos := 0
    sinkData := 0 }

/-- The block right after reset, built from the configuration of log 1. -/
def State.reset : State := State.initial resetConfig (graphOf resetConfig)

end Sys2Proof.Machine
end

