-- ==== Sys2Proof/Machine/Flags.lean ====
section
/-! DEFINITION. The flags: the sticky ERR bits (10_state R48), STATUS (R49), the hysteresis flags of ENV (42_envelope R291, R292) and the drive of the SEQ flags (44_sequencer R373). No arithmetic sets a flag (R59). -/

namespace Sys2Proof.Machine

/-- R48: the bits of ERR. -/
inductive ErrBit where
  | badOpcode
  | reserved
  | badTarget
  | badIndex
  | loadFail
  | numFault
  deriving DecidableEq, Repr

/-- R48: the position of a bit. -/
def errPos : ErrBit → Nat
  | .badOpcode => 0
  | .reserved => 1
  | .badTarget => 2
  | .badIndex => 3
  | .loadFail => 4
  | .numFault => 5

/-- R48: ERR with bit `b` set; a set bit stays set. -/
def errSet (e : HostWord) (b : ErrBit) : HostWord := e ||| (1#32 <<< errPos b)

/-- R49: the STATUS register. -/
def statusWord (s : State) : HostWord :=
  (if s.run then 1#32 else 0#32) ||| (if s.closed then 2#32 else 0#32) |||
    (if s.cmdq.isEmpty then 4#32 else 0#32)

/-- R291: TRIGGER_DETECT. Returns `trig` and the node's fields with `trig_armed` updated. -/
def triggerDetect (v : Int) (e : EnvSt) : Bool × EnvSt :=
  if v < tLow then (false, { e with trigArmed := true })
  else if tHigh < v ∧ e.trigArmed = true then (true, { e with trigArmed := false })
  else (false, e)

/-- R292: GATE_DETECT. -/
def gateDetect (v : Int) (e : EnvSt) : EnvSt :=
  if tHigh < v then { e with gateOpen := true }
  else if v < tLow then { e with gateOpen := false }
  else e

/-- R373: the level a SEQ flag drives. -/
def driveLevel (b : Bool) : Word := if b then highLevel else 0

end Sys2Proof.Machine
end

