-- ==== Sys2Proof/Machine/Operands.lean ====
section
/-! DEFINITION. Operand forms: the port indices of R52, the readings of an ENV and an OSC node's latches (42_envelope, 43_oscillator R330), the target node of a command (47_commands R485) and the operands of the numeric unit (40_numeric R220). -/

namespace Sys2Proof.Machine

/-! ### Port indices (R52) -/

/-- R52, ENV in 0. -/
def pAttackFor : Nat := 0
/-- R52, ENV in 1. -/
def pAttackTo : Nat := 1
/-- R52, ENV in 2. -/
def pDecayFor : Nat := 2
/-- R52, ENV in 3. -/
def pSustainAt : Nat := 3
/-- R52, ENV in 4. -/
def pReleaseFor : Nat := 4
/-- R52, ENV in 5. -/
def pTrigger : Nat := 5
/-- R52, ENV in 6. -/
def pGate : Nat := 6
/-- R52, OSC in 0. -/
def pFreq : Nat := 0
/-- R52, OSC in 1. -/
def pMod : Nat := 1
/-- R52, OSC in 2. -/
def pModDepth : Nat := 2
/-- R52, VCA in 0. -/
def pAmpCv : Nat := 0
/-- R52, VCA in 1. -/
def pInCv : Nat := 1
/-- R52, MIX in 0. -/
def pIn1 : Nat := 0
/-- R52, MIX in 1. -/
def pLevel1 : Nat := 1
/-- R52, MIX in 2. -/
def pIn2 : Nat := 2
/-- R52, MIX in 3. -/
def pLevel2 : Nat := 3
/-- R52, REV in 0. -/
def pRevIn : Nat := 0
/-- R52: output 0 of every kind (`out`, or a SEQ node's `gate`). -/
def pOut : Nat := 0
/-- R52, SEQ out 1. -/
def pSeqTrigger : Nat := 1

/-! ### Readings -/

/-- What ENV.STEP reads of its latches, afresh at every step (42_envelope, heading; R300). -/
structure EnvIn where
  attackFor : Nat
  attackTo : Int
  decayFor : Nat
  sustainAt : Int
  releaseFor : Nat
  trigger : Int
  gate : Int
  deriving DecidableEq, Repr

/-- The readings A, T, D, S, R and the two levels (42_envelope, heading; R290). -/
def envIn (n : Node) : EnvIn :=
  { attackFor := u16 (inp n pAttackFor)
    attackTo := s16 (inp n pAttackTo)
    decayFor := u16 (inp n pDecayFor)
    sustainAt := s16 (inp n pSustainAt)
    releaseFor := u16 (inp n pReleaseFor)
    trigger := s16 (inp n pTrigger)
    gate := s16 (inp n pGate) }

/-- R332: the note index, clamped to 0..127. -/
def noteIndex (n : Node) : Nat := (clamp (s16 (inp n pFreq)) 0 127).toNat

/-- R333: the phase increment of the current note, from the shared INC_ROM. -/
def noteInc (c : Config) (n : Node) : Nat := c.roms.inc.getD (noteIndex n) 0

/-- R334: the table a waveform reads: a shared ROM, or the node's own CUSTOM. -/
def waveTable (c : Config) (o : OscSt) : Memory :=
  match o.wave with
  | .sine => c.roms.sine
  | .saw => c.roms.saw
  | .triangle => c.roms.tri
  | .square => c.roms.square
  | .whiteNoise => c.roms.noise
  | .custom => o.custom

/-! ### Nodes -/

/-- R485: the node a command names, if it exists and is of the opcode's kind. -/
def targetNode (s : State) (k : Kind) (node : BitVec 8) : Option Node :=
  match s.nodes[node.toNat]? with
  | none => none
  | some n => if nodeKind n = k then some n else none

/-- The node a DISP code acts on: the one its operand port names (log 5). -/
def operandNode (s : State) : Option Node := s.nodes[s.opr.node]?

/-! ### Operands of the numeric unit (R220) -/

/-- `s(a)` of operand a in format f. -/
def fxA (s : State) (f : Fmt) : Int := sread (fmtWidth f) s.opr.a

/-- `s(b)` of operand b in format f. -/
def fxB (s : State) (f : Fmt) : Int := sread (fmtWidth f) s.opr.b

end Sys2Proof.Machine
end

