-- ==== Sys2Proof/Machine/Ops.lean ====
section
/-! DEFINITION. The named operations over State: error recording (60_exceptions R531, R535, R536), node updates, the commands' shared forms (47_commands R485, R486), and the host registers with their windows (20_memory R135). -/

namespace Sys2Proof.Machine

/-! ### Taking an error

The block has no trap (R530): taking an error sets one sticky bit of ERR and discards the offending action; no state is
saved, no mode changes and no vector is taken (R535), and there is no return (R537). -/

/-- R17 `err(b)`, R532. -/
def setErr (b : ErrBit) (s : State) : State := { s with err := errSet s.err b }

/-- R17 `raise Fault(r)`, R234, R536: the result is the fault and no value, and ERR.NUM_FAULT is set. -/
def raiseFault (r : Fault) (s : State) : State := { setErr .numFault s with fxResult := .fault r }

/-! ### Node updates -/

/-- Node i becomes n. -/
def setNode (s : State) (i : Nat) (n : Node) : State := { s with nodes := s.nodes.set i n }

/-- A STEP or TICK on the node its operand port names: `f` answers the node after the operation, or none where the
node is not of the operation's kind (log 14). -/
def onOperandNode (f : Node → Option Node) (s : State) : Host.Outcome State Fault Refusal :=
  match (operandNode s).bind f with
  | none => .refused .wrongKind
  | some n => .next (setNode s s.opr.node n)

/-- R485, then the opcode's rule: a command on a node of kind k, or BAD_TARGET. -/
def onTarget (k : Kind) (node : BitVec 8) (f : Node → State) (s : State) : State :=
  match targetNode s k node with
  | none => setErr .badTarget s
  | some n => f n

/-- R487 to R491, R494, R495: a command that writes one input latch. -/
def writeLatch (k : Kind) (node : BitVec 8) (p : Nat) (v : Word) (s : State) : State :=
  onTarget k node (fun n => setNode s node.toNat (setIn n p v)) s

/-- A change of a SEQ node's private fields; any other node is left alone. -/
def mapSeq (f : SeqSt → SeqSt) (n : Node) : Node :=
  match n.body with
  | .seq q => { n with body := .seq (f q) }
  | .env _ => n
  | .osc _ => n
  | .vca => n
  | .mix => n
  | .rev _ => n

/-- A change of an OSC node's private fields; any other node is left alone. -/
def mapOsc (f : OscSt → OscSt) (n : Node) : Node :=
  match n.body with
  | .osc o => { n with body := .osc (f o) }
  | .env _ => n
  | .seq _ => n
  | .vca => n
  | .mix => n
  | .rev _ => n

/-- R485, R486, then the rule of SET_PATTERN or SET_GATELEN on the entry named by ELEM. -/
def writeStep (node elem : BitVec 8) (f : Nat → SeqSt → SeqSt) (s : State) : State :=
  onTarget .seq node
    (fun n =>
      if 15 < elem.toNat then setErr .badIndex s else setNode s node.toNat (mapSeq (f elem.toNat) n)) s

/-! ### WSRC (R496) -/

/-- R496: one answer to a LOAD_WAVE: the next one WSRC has ready, or else a free draw (log 7). -/
def nextAnswer (s : State) (h : BitVec 32) : WaveAnswer :=
  match s.wsrcAnswers with
  | a :: _ => a
  | [] => if Config.wsrcFails s.draws h then .fail else .samples (Config.wsrcSamples s.draws h)

/-- The state after one answer is taken. -/
def takeAnswer (s : State) : State :=
  match s.wsrcAnswers with
  | _ :: rest => { s with wsrcAnswers := rest }
  | [] => { s with draws := s.draws + 1 }

/-- R497: the copy into CUSTOM from entry 0, as far as both last. -/
def copyInto : List Word → Memory → Memory
  | [], m => m
  | _ :: _, [] => []
  | r :: rs, _ :: ms => r :: copyInto rs ms

/-- R497: what a successful load does to the node: at most N_TABLE samples copied, and Custom selected. -/
def loadSamples (c : Config) (r : List Word) (o : OscSt) : OscSt :=
  { o with custom := copyInto (r.take (nTable c)) o.custom, wave := .custom }

/-! ### Host registers (R45 to R49) and their windows (R135) -/

/-- R130: the readable registers. -/
inductive HostReg where
  | sampleOut
  | beatIndex
  | execTime
  | err
  | status
  deriving DecidableEq, Repr

/-- R45 to R49: the present value of a register. -/
def hostReg (s : State) : HostReg → HostWord
  | .sampleOut => s.sampleOut
  | .beatIndex => s.beatIndex
  | .execTime => s.execTime
  | .err => s.err
  | .status => statusWord s

/-- R135: the window of a register. -/
def window (v : Windows) : HostReg → List HostWord
  | .sampleOut => v.sampleOut
  | .beatIndex => v.beatIndex
  | .execTime => v.execTime
  | .err => v.err
  | .status => v.status

/-- The windows with one of them replaced. -/
def setWindow (v : Windows) (r : HostReg) (w : List HostWord) : Windows :=
  match r with
  | .sampleOut => { v with sampleOut := w }
  | .beatIndex => { v with beatIndex := w }
  | .execTime => { v with execTime := w }
  | .err => { v with err := w }
  | .status => { v with status := w }

/-- R135: a window with the present value added at its young end, where it differs from the youngest. -/
def see (w : List HostWord) (v : HostWord) : List HostWord := if w.getLast? = some v then w else w ++ [v]

/-- R135: after an agent's step, the present value of every register enters its window. -/
def publish (s : State) : State :=
  { s with
    seen :=
      { sampleOut := see s.seen.sampleOut s.sampleOut
        beatIndex := see s.seen.beatIndex s.beatIndex
        execTime := see s.seen.execTime s.execTime
        err := see s.seen.err s.err
        status := see s.seen.status (statusWord s) } }

/-- R135: which entry of the window a read `age` values back returns; the oldest one where `age` reaches past it. -/
def windowIndex (w : List HostWord) (age : Nat) : Nat := w.length - 1 - age

/-- R122, R135: a 32-bit read of a register. The value returned becomes the oldest one a later read may return; nothing
else changes (R129). -/
def readReg (r : HostReg) (age : Nat) (s : State) : State :=
  let w := window s.seen r
  let i := windowIndex w age
  { s with
    busData := (w.getD i (hostReg s r)).setWidth 64
    seen := setWindow s.seen r (w.drop i) }

end Sys2Proof.Machine
end

