-- ==== Sys2Proof/Machine/Commands.lean ====
section
/-! DEFINITION. The commands (47_commands R483 to R497) and their application. -/

namespace Sys2Proof.Machine

/-- R487 SET_ENV_ATTACK_FOR. -/
def applySetEnvAttackFor (node : BitVec 8) (v : Word) (s : State) : State := writeLatch .env node pAttackFor v s

/-- R488 SET_ENV_ATTACK_TO. -/
def applySetEnvAttackTo (node : BitVec 8) (v : Word) (s : State) : State := writeLatch .env node pAttackTo v s

/-- R489 SET_ENV_DECAY_FOR. -/
def applySetEnvDecayFor (node : BitVec 8) (v : Word) (s : State) : State := writeLatch .env node pDecayFor v s

/-- R490 SET_ENV_SUSTAIN_AT. -/
def applySetEnvSustainAt (node : BitVec 8) (v : Word) (s : State) : State := writeLatch .env node pSustainAt v s

/-- R491 SET_ENV_RELEASE_FOR. -/
def applySetEnvReleaseFor (node : BitVec 8) (v : Word) (s : State) : State := writeLatch .env node pReleaseFor v s

/-- R492 SET_PATTERN. -/
def applySetPattern (node elem : BitVec 8) (b : Bool) (s : State) : State :=
  writeStep node elem (fun i q => { q with pattern := patWrite q.pattern i b }) s

/-- R493 SET_GATELEN. -/
def applySetGatelen (node elem : BitVec 8) (v : Word) (s : State) : State :=
  writeStep node elem (fun i q => { q with gatelen := memWrite q.gatelen i v }) s

/-- R494 SET_OSC_FREQ. -/
def applySetOscFreq (node : BitVec 8) (v : Word) (s : State) : State := writeLatch .osc node pFreq v s

/-- R495 SET_OSC_SCALE. -/
def applySetOscScale (node : BitVec 8) (v : Word) (s : State) : State := writeLatch .osc node pModDepth v s

/-- R497 LOAD_WAVE: WSRC is asked only after the target check passes (R534 (1)). -/
def applyLoadWave (node : BitVec 8) (h : BitVec 32) (s : State) : State :=
  onTarget .osc node
    (fun n =>
      match nextAnswer s h with
      | .fail => setErr .loadFail (takeAnswer s)
      | .samples r => setNode (takeAnswer s) node.toNat (mapOsc (loadSamples s.cfg r) n)) s

/-- SET_ENV_ATTACK_FOR (R487). -/
def execSetEnvAttackFor (node : BitVec 8) (v : Word) (s : State) : Host.Outcome State Fault Refusal :=
  .next (applySetEnvAttackFor node v s)

/-- SET_ENV_ATTACK_TO (R488). -/
def execSetEnvAttackTo (node : BitVec 8) (v : Word) (s : State) : Host.Outcome State Fault Refusal :=
  .next (applySetEnvAttackTo node v s)

/-- SET_ENV_DECAY_FOR (R489). -/
def execSetEnvDecayFor (node : BitVec 8) (v : Word) (s : State) : Host.Outcome State Fault Refusal :=
  .next (applySetEnvDecayFor node v s)

/-- SET_ENV_SUSTAIN_AT (R490). -/
def execSetEnvSustainAt (node : BitVec 8) (v : Word) (s : State) : Host.Outcome State Fault Refusal :=
  .next (applySetEnvSustainAt node v s)

/-- SET_ENV_RELEASE_FOR (R491). -/
def execSetEnvReleaseFor (node : BitVec 8) (v : Word) (s : State) : Host.Outcome State Fault Refusal :=
  .next (applySetEnvReleaseFor node v s)

/-- SET_PATTERN (R492). -/
def execSetPattern (node elem : BitVec 8) (b : Bool) (s : State) : Host.Outcome State Fault Refusal :=
  .next (applySetPattern node elem b s)

/-- SET_GATELEN (R493). -/
def execSetGatelen (node elem : BitVec 8) (v : Word) (s : State) : Host.Outcome State Fault Refusal :=
  .next (applySetGatelen node elem v s)

/-- SET_OSC_FREQ (R494). -/
def execSetOscFreq (node : BitVec 8) (v : Word) (s : State) : Host.Outcome State Fault Refusal :=
  .next (applySetOscFreq node v s)

/-- SET_OSC_SCALE (R495). -/
def execSetOscScale (node : BitVec 8) (v : Word) (s : State) : Host.Outcome State Fault Refusal :=
  .next (applySetOscScale node v s)

/-- LOAD_WAVE (R497). -/
def execLoadWave (node : BitVec 8) (h : BitVec 32) (s : State) : Host.Outcome State Fault Refusal :=
  .next (applyLoadWave node h s)

/-- R176: the opcode's rule for a decoded command word. A command word decodes to no other operation (R170). -/
def applyCmd (i : Instr) (s : State) : State :=
  match i with
  | .setEnvAttackFor n v => applySetEnvAttackFor n v s
  | .setEnvAttackTo n v => applySetEnvAttackTo n v s
  | .setEnvDecayFor n v => applySetEnvDecayFor n v s
  | .setEnvSustainAt n v => applySetEnvSustainAt n v s
  | .setEnvReleaseFor n v => applySetEnvReleaseFor n v s
  | .setPattern n e b => applySetPattern n e b s
  | .setGatelen n e v => applySetGatelen n e v s
  | .setOscFreq n v => applySetOscFreq n v s
  | .setOscScale n v => applySetOscScale n v s
  | .loadWave n h => applyLoadWave n h s
  | .fxRaw _ => s
  | .fxMul _ _ => s
  | .fxConvQ88Q80 => s
  | .fxConvQ88Q17 => s
  | .fxConv _ _ => s
  | .fxSadd _ _ => s
  | .fxRecip _ => s
  | .engValidate => s
  | .engIterate => s
  | .engPropagate => s
  | .engEmit => s
  | .engDrain => s
  | .envStep => s
  | .envTick => s
  | .oscStep => s
  | .oscTick => s
  | .seqStep => s
  | .seqTick => s
  | .vcaStep => s
  | .vcaTick => s
  | .mixStep => s
  | .mixTick => s
  | .revStep => s
  | .revTick => s

/-- R483, R484: what a word that spells no command does: the first failing check sets its bit, and the word is discarded. -/
def discardWord (e : DecodeError) (s : State) : State :=
  match e with
  | .badOpcode => setErr .badOpcode s
  | .reservedBits => setErr .reserved s
  | .reservedNum => s
  | .reservedDisp => s

/-- R483: APPLY(w). -/
def applyWord (w : CmdWord) (s : State) : State :=
  match decodeCmd w with
  | .ok i => applyCmd i s
  | .error e => discardWord e s

end Sys2Proof.Machine
end

