-- ==== Sys2Proof/Machine/Envelope.lean ====
section
/-! DEFINITION. The envelope generator (42_envelope R290 to R305): ENV.STEP and ENV.TICK. -/

namespace Sys2Proof.Machine

/-- R294: in Off. -/
def offStep (trig : Bool) (e : EnvSt) : Word × EnvSt :=
  (0, { e with state := if trig then .attack else .off, counter := 0 })

/-- R298: the gate is lost in Attack, Decay or Sustain; the output keeps its value. -/
def gateLoss (out : Word) (e : EnvSt) : Word × EnvSt :=
  (out, { e with state := .release, counter := 0 })

/-- R295: in Attack. -/
def attackStep (c : Config) (x : EnvIn) (e : EnvSt) : Word × EnvSt :=
  let k := u16 e.counter + 1
  if x.attackFor ≤ k then (trunc16 x.attackTo, { e with state := .decay, counter := 0 })
  else (trunc16 (rampDiv c (x.attackTo * k) x.attackFor), { e with counter := BitVec.ofNat 16 k })

/-- R296: in Decay. -/
def decayStep (c : Config) (x : EnvIn) (e : EnvSt) : Word × EnvSt :=
  let k := u16 e.counter + 1
  if x.decayFor ≤ k then (trunc16 x.sustainAt, { e with state := .sustain, counter := 0 })
  else
    (trunc16 (x.attackTo - rampDiv c ((x.attackTo - x.sustainAt) * k) x.decayFor),
      { e with counter := BitVec.ofNat 16 k })

/-- R297: in Sustain. -/
def sustainStep (x : EnvIn) (e : EnvSt) : Word × EnvSt := (trunc16 x.sustainAt, e)

/-- R299: in Release; a gate that opened again is forced closed. -/
def releaseStep (c : Config) (x : EnvIn) (e : EnvSt) : Word × EnvSt :=
  let e1 := { e with gateOpen := false }
  let k := u16 e.counter + 1
  if x.releaseFor ≤ k then (0, { e1 with state := .off, counter := 0 })
  else
    (trunc16 (x.sustainAt - rampDiv c (x.sustainAt * k) x.releaseFor), { e1 with counter := BitVec.ofNat 16 k })

/-- R290 after the two detectors: the output and the fields, from the output so far and the fields so far. -/
def envTransition (c : Config) (x : EnvIn) (trig : Bool) (out : Word) (e : EnvSt) : Word × EnvSt :=
  match e.state with
  | .off => offStep trig e
  | .attack =>
    if trig = true ∧ c.retrig = .hold then (out, e)
    else if e.gateOpen then attackStep c x e else gateLoss out e
  | .decay =>
    if trig = true ∧ c.retrig = .hold then (out, e)
    else if e.gateOpen then decayStep c x e else gateLoss out e
  | .sustain =>
    if trig = true ∧ c.retrig = .hold then (out, e)
    else if e.gateOpen then sustainStep x e else gateLoss out e
  | .release =>
    if trig = true ∧ c.retrig = .hold then (out, e) else releaseStep c x e

/-- R290: the detectors first, then the transition. -/
def envNext (c : Config) (x : EnvIn) (out : Word) (e : EnvSt) : Word × EnvSt :=
  let d := triggerDetect x.trigger e
  envTransition c x d.1 out (gateDetect x.gate d.2)

/-- R290: ENV.STEP on a node with private fields e. -/
def envStepNode (c : Config) (n : Node) (e : EnvSt) : Node :=
  let r := envNext c (envIn n) (outp n pOut) e
  { setOut n pOut r.1 with body := .env r.2 }

/-- R264: ENV.TICK reads and writes nothing. -/
def envTickNode (n : Node) : Node := n

/-- ENV.STEP of a node, if it is an ENV node. -/
def asEnvStep (c : Config) (n : Node) : Option Node :=
  match n.body with
  | .env e => some (envStepNode c n e)
  | .osc _ => none
  | .seq _ => none
  | .vca => none
  | .mix => none
  | .rev _ => none

/-- R290 ENV.STEP. -/
def execEnvStep (s : State) : Host.Outcome State Fault Refusal := onOperandNode (asEnvStep s.cfg) s

/-- R264 ENV.TICK: no operation. -/
def execEnvTick (s : State) : Host.Outcome State Fault Refusal := .next s

end Sys2Proof.Machine
end

