-- ==== Sys2Proof/Machine/Oscillator.lean ====
section
/-! DEFINITION. The oscillator (43_oscillator R330 to R346): OSC.STEP and OSC.TICK. -/

namespace Sys2Proof.Machine

/-- R336: `m = MULQ15(mod, mod_depth)`. -/
def modFactor (n : Node) : Int := mulq15 (inp n pMod) (inp n pModDepth)

/-- R336: the modulation offset, exact. -/
def modOffset (c : Config) (n : Node) : Int := asr (modFactor n * (noteInc c n : Int)) 15

/-- R335: the phase after the step, reduced modulo 2^W_PHASE. -/
def nextPhase (c : Config) (n : Node) (phase : Nat) : Nat :=
  (((phase : Int) + (noteInc c n : Int) + modOffset c n) % 2 ^ c.wPhase).toNat

/-- R334: the table index of a phase: its top TABLE_BITS bits. -/
def tableIndex (c : Config) (phase : Nat) : Nat := phase >>> (c.wPhase - c.tableBits)

/-- R330: OSC.STEP on a node with private fields o: the phase first, then the table read (R331). -/
def oscStepNode (c : Config) (n : Node) (o : OscSt) : Node :=
  let p := nextPhase c n o.phase
  { setOut n pOut (memRead (waveTable c o) (tableIndex c p)) with body := .osc { o with phase := p } }

/-- R264: OSC.TICK reads and writes nothing. -/
def oscTickNode (n : Node) : Node := n

/-- OSC.STEP of a node, if it is an OSC node. -/
def asOscStep (c : Config) (n : Node) : Option Node :=
  match n.body with
  | .osc o => some (oscStepNode c n o)
  | .env _ => none
  | .seq _ => none
  | .vca => none
  | .mix => none
  | .rev _ => none

/-- R330 OSC.STEP. -/
def execOscStep (s : State) : Host.Outcome State Fault Refusal := onOperandNode (asOscStep s.cfg) s

/-- R264 OSC.TICK: no operation. -/
def execOscTick (s : State) : Host.Outcome State Fault Refusal := .next s

end Sys2Proof.Machine
end

