-- ==== Sys2Proof/Machine/Sequencer.lean ====
section
/-! DEFINITION. The step sequencer (44_sequencer R370 to R379): SEQ.TICK and SEQ.STEP. -/

namespace Sys2Proof.Machine

/-- R371 without DRIVE: the beat advances modulo 16; an active step opens the gate and the trigger. -/
def seqTickSt (q : SeqSt) : SeqSt :=
  let b := q.beat + 1
  if patRead q.pattern b.toNat then { q with beat := b, gateR := true, trigR := true, elapsed := 0 }
  else { q with beat := b, gateR := false, trigR := false }

/-- R372: the elapsed count after this STEP, modulo 2^16. -/
def nextElapsed (q : SeqSt) : BitVec 16 := q.elapsed + 1

/-- R372 without DRIVE: the trigger clears; on an active step the gate closes when the count wraps or exceeds GATELEN. -/
def seqStepSt (q : SeqSt) : SeqSt :=
  if patRead q.pattern q.beat.toNat then
    { q with
      trigR := false
      elapsed := nextElapsed q
      gateR :=
        if nextElapsed q = 0 ∨ u16 (memRead q.gatelen q.beat.toNat) < u16 (nextElapsed q) then false else q.gateR }
  else { q with trigR := false }

/-- R373: DRIVE. -/
def drive (n : Node) (q : SeqSt) : Node :=
  { setOut (setOut n pOut (driveLevel q.gateR)) pSeqTrigger (driveLevel q.trigR) with body := .seq q }

/-- R371: SEQ.TICK on a node with private fields q. -/
def seqTickNode (n : Node) (q : SeqSt) : Node := drive n (seqTickSt q)

/-- R372: SEQ.STEP on a node with private fields q. -/
def seqStepNode (n : Node) (q : SeqSt) : Node := drive n (seqStepSt q)

/-- SEQ.STEP of a node, if it is a SEQ node. -/
def asSeqStep (n : Node) : Option Node :=
  match n.body with
  | .seq q => some (seqStepNode n q)
  | .env _ => none
  | .osc _ => none
  | .vca => none
  | .mix => none
  | .rev _ => none

/-- SEQ.TICK of a node, if it is a SEQ node. -/
def asSeqTick (n : Node) : Option Node :=
  match n.body with
  | .seq q => some (seqTickNode n q)
  | .env _ => none
  | .osc _ => none
  | .vca => none
  | .mix => none
  | .rev _ => none

/-- R372 SEQ.STEP. -/
def execSeqStep (s : State) : Host.Outcome State Fault Refusal := onOperandNode asSeqStep s

/-- R371 SEQ.TICK. -/
def execSeqTick (s : State) : Host.Outcome State Fault Refusal := onOperandNode asSeqTick s

end Sys2Proof.Machine
end

