-- ==== Sys2Proof/Machine/Stages.lean ====
section
/-! DEFINITION. The arithmetic stages (45_vca_mixer_reverb R400 to R408): VCA, MIX and REV, STEP and TICK. -/

namespace Sys2Proof.Machine

/-! ### VCA (R400) -/

/-- R400: the narrowing of the product. -/
def narrow16 (c : Config) (p : Int) : Word :=
  match c.narrow with
  | .wrap => trunc16 p
  | .sat => sat16 p

/-- R400: VCA.STEP on a node. -/
def vcaStepNode (c : Config) (n : Node) : Node :=
  setOut n pOut (narrow16 c (mulq15 (inp n pAmpCv) (inp n pInCv)))

/-- R264: VCA.TICK reads and writes nothing. -/
def vcaTickNode (n : Node) : Node := n

/-- VCA.STEP of a node, if it is a VCA node. -/
def asVcaStep (c : Config) (n : Node) : Option Node :=
  match n.body with
  | .vca => some (vcaStepNode c n)
  | .env _ => none
  | .osc _ => none
  | .seq _ => none
  | .mix => none
  | .rev _ => none

/-- R400 VCA.STEP. -/
def execVcaStep (s : State) : Host.Outcome State Fault Refusal := onOperandNode (asVcaStep s.cfg) s

/-- R264 VCA.TICK: no operation. -/
def execVcaTick (s : State) : Host.Outcome State Fault Refusal := .next s

/-! ### MIX (R402) -/

/-- R402: the exact sum of the two weighted inputs. -/
def mixSum (n : Node) : Int :=
  mulq15 (inp n pIn1) (inp n pLevel1) + mulq15 (inp n pIn2) (inp n pLevel2)

/-- R402: MIX.STEP on a node: one clamp of the exact sum. -/
def mixStepNode (n : Node) : Node := setOut n pOut (sat16 (mixSum n))

/-- R264: MIX.TICK reads and writes nothing. -/
def mixTickNode (n : Node) : Node := n

/-- MIX.STEP of a node, if it is a MIX node. -/
def asMixStep (n : Node) : Option Node :=
  match n.body with
  | .mix => some (mixStepNode n)
  | .env _ => none
  | .osc _ => none
  | .seq _ => none
  | .vca => none
  | .rev _ => none

/-- R402 MIX.STEP. -/
def execMixStep (s : State) : Host.Outcome State Fault Refusal := onOperandNode asMixStep s

/-- R264 MIX.TICK: no operation. -/
def execMixTick (s : State) : Host.Outcome State Fault Refusal := .next s

/-! ### REV (R404) -/

/-- R404: the sample a tap stored L_t steps ago: the entry at its position, read before it is overwritten. -/
def tapDelayed (t : TapSt) : Int := s16 (memRead t.buf t.pos)

/-- R404: the dry and wet terms a tap adds to the sum. -/
def tapTerm (x g d : Int) : Int :=
  asr (x * (32768 - g)) 15 + asr (d * (32768 - asr (g * g) 15)) 15

/-- R404: a tap after the step: the input plus the scaled feedback is stored, saturated, and the position advances
modulo the tap's own length (R405). -/
def tapNext (x : Int) (tc : TapCfg) (t : TapSt) : TapSt :=
  { buf := memWrite t.buf t.pos (sat16 (x + asr (s16 tc.gain * tapDelayed t) 15))
    pos := (t.pos + 1) % tc.len }

/-- R404: the loop over the taps in order: the exact sum of their terms, and the taps after the step. -/
def revTaps (x : Int) : List TapCfg → List TapSt → Int × List TapSt
  | tc :: tcs, t :: ts =>
    let rest := revTaps x tcs ts
    (tapTerm x (s16 tc.gain) (tapDelayed t) + rest.1, tapNext x tc t :: rest.2)
  | _, ts => (0, ts)

/-- R404: REV.STEP on a node with the configured taps tcs and the tap states ts: one clamp of the exact sum. -/
def revStepNode (tcs : List TapCfg) (n : Node) (ts : List TapSt) : Node :=
  let r := revTaps (s16 (inp n pRevIn)) tcs ts
  { setOut n pOut (sat16 r.1) with body := .rev r.2 }

/-- R264: REV.TICK reads and writes nothing. -/
def revTickNode (n : Node) : Node := n

/-- REV.STEP of a node with the taps tcs, if it is a REV node. -/
def asRevStep (tcs : List TapCfg) (n : Node) : Option Node :=
  match n.body with
  | .rev ts => some (revStepNode tcs n ts)
  | .env _ => none
  | .osc _ => none
  | .seq _ => none
  | .vca => none
  | .mix => none

/-- R404 REV.STEP. -/
def execRevStep (s : State) : Host.Outcome State Fault Refusal :=
  onOperandNode (asRevStep (tapsOf s.cfg s.opr.node)) s

/-- R264 REV.TICK: no operation. -/
def execRevTick (s : State) : Host.Outcome State Fault Refusal := .next s

end Sys2Proof.Machine
end

