-- ==== Sys2Proof/Machine/Engine.lean ====
section
/-! DEFINITION. The patch-graph engine (46_engine R440 to R462) and the drain (47_commands R481): ENG.VALIDATE, ENG.ITERATE, ENG.PROPAGATE, ENG.EMIT, ENG.DRAIN, and reset from any configuration (70_reset R580). -/

namespace Sys2Proof.Machine

/-! ### Phase (a) (R481) -/

/-- R481: the drain of every queued word in order, then the halt where the channel is closed (R482). APPLY neither reads
nor writes CMDQ, so the queue is emptied first. -/
def drain (s : State) : State :=
  let t := s.cmdq.foldl (fun u w => applyWord w u) { s with cmdq := [] }
  { t with run := if t.closed then false else t.run }

/-! ### Phases (b) and (c) (R450) -/

/-- R450 (b): STEP of the node at index i, `{kind, STEP}`. -/
def stepNode (c : Config) (i : Nat) (n : Node) : Node :=
  match n.body with
  | .env e => envStepNode c n e
  | .osc o => oscStepNode c n o
  | .seq q => seqStepNode n q
  | .vca => vcaStepNode c n
  | .mix => mixStepNode n
  | .rev ts => revStepNode (tapsOf c i) n ts

/-- R450 (c): TICK of a node, `{kind, TICK}`. -/
def tickNode (n : Node) : Node :=
  match n.body with
  | .env _ => envTickNode n
  | .osc _ => oscTickNode n
  | .seq q => seqTickNode n q
  | .vca => vcaTickNode n
  | .mix => mixTickNode n
  | .rev _ => revTickNode n

/-- R450 (b): the STEPs of the nodes named, in the order given. -/
def stepNodes (c : Config) (order : List Nat) (ns : List Node) : List Node :=
  order.foldl (fun ms i => ms.modify i (stepNode c i)) ns

/-- R450 (c): the TICKs of the nodes named, in the order given. -/
def tickNodes (order : List Nat) (ns : List Node) : List Node :=
  order.foldl (fun ms i => ms.modify i tickNode) ns

/-- R450 (b): every node steps, in registration order. -/
def stepAll (s : State) : State :=
  { s with nodes := stepNodes s.cfg (List.range s.nodes.length) s.nodes }

/-- R450 (c): every node ticks, in registration order. -/
def tickAll (s : State) : State :=
  { s with nodes := tickNodes (List.range s.nodes.length) s.nodes }

/-- R452: whether the tick fires. -/
def tickFires (s : State) : Bool := decide (s.tickCtr = 0)

/-- R452: TICK_CTR after TICK_FIRES. -/
def tickCount (s : State) : State :=
  { s with tickCtr := if tickFires s then s.cfg.tickPeriod - 1 else s.tickCtr - 1 }

/-- R450 (c): the nodes tick in a tick iteration. -/
def tickPhase (s : State) : State := if tickFires s then tickAll (tickCount s) else tickCount s

/-! ### Phase (d) (R453) -/

/-- R453: one wire. Its source is read from the nodes as they are; a missing node reads 0 and absorbs writes. -/
def propagateWire (ns : List Node) (w : RWire) : List Node :=
  let v := match ns[w.src]? with
    | none => 0
    | some n => readPort n w.srcPort
  ns.modify w.dst (fun n => writePort n w.dstPort v)

/-- R453: every wire in configuration order; the last wire to a latch wins (R454). -/
def propagate (s : State) : State := { s with nodes := s.graph.wires.foldl propagateWire s.nodes }

/-! ### Phase (e) (R455, R456) -/

/-- R455: the sample `OUTPUT` names: an output register, or 0 for the null port. -/
def outputSample (s : State) : Word :=
  match s.nodes[s.graph.outNode]? with
  | none => 0
  | some n => readPort n s.graph.outPort

/-- R455: ENG.EMIT. -/
def emit (s : State) : State :=
  { s with
    sampleOut := (outputSample s).setWidth 32
    beatIndex := beatWord s.nodes
    outStream := s.outStream ++ [outputSample s] }

/-- R456: whether this iteration updates EXEC_TIME. -/
def bufferFull (s : State) : Bool := decide (s.bufCtr.toNat + 1 = s.cfg.bufferLen)

/-- R456: EXEC_UPDATE; the value drawn is free (log 8). -/
def execUpdate (s : State) : State :=
  { s with
    bufCtr := if bufferFull s then 0 else s.bufCtr + 1
    execTime := if bufferFull s then Config.execTimeDraw s.draws else s.execTime
    draws := if bufferFull s then s.draws + 1 else s.draws }

/-! ### The iteration (R450) -/

/-- R450 (b) to the end: what follows a drain that did not halt. -/
def afterDrain (s : State) : State :=
  let t := execUpdate (emit (propagate (tickPhase (stepAll s))))
  { t with sampleIndex := t.sampleIndex + 1 }

/-- R450: one iteration, run when RUN = 1; a strobe in HALTED has no effect (R458). -/
def iterate (s : State) : State :=
  if s.run then
    if (drain s).run then afterDrain (drain s) else drain s
  else s

/-! ### The engine's operations -/

/-- R440 ENG.VALIDATE: the resolved graph, or the configuration is refused with the reason (R443). -/
def execEngValidate (s : State) : Host.Outcome State Fault Refusal :=
  match validate s.cfg with
  | .ok g => .next { s with graph := g }
  | .error r => .refused (.rejected r)

/-- R450 ENG.ITERATE. -/
def execEngIterate (s : State) : Host.Outcome State Fault Refusal := .next (iterate s)

/-- R453 ENG.PROPAGATE. -/
def execEngPropagate (s : State) : Host.Outcome State Fault Refusal := .next (propagate s)

/-- R455 ENG.EMIT. -/
def execEngEmit (s : State) : Host.Outcome State Fault Refusal := .next (emit s)

/-- R481 ENG.DRAIN. -/
def execEngDrain (s : State) : Host.Outcome State Fault Refusal := .next (drain s)

/-- R580: reset from any configuration. A rejected one gives no state (R443). -/
def resetWith (c : Config) : Except RejectReason State :=
  match validate c with
  | .ok g => .ok (State.initial c g)
  | .error r => .error r

end Sys2Proof.Machine
end

