-- ==== Sys2Proof/Machine/Numeric.lean ====
section
/-! DEFINITION. The numeric unit (40_numeric R221 to R234). Operands come from the operand ports (log 5); the result and its format go to the unit's result. -/

namespace Sys2Proof.Machine

/-- R228: the binary points aligned by an arithmetic shift, exact. -/
def alignPoint (fs fd : Nat) (a : Int) : Int :=
  if fs ≤ fd then a * 2 ^ (fd - fs) else asr a (fs - fd)

/-- R232: the w restoring steps, from bit i−1 of the dividend down to bit 0, on (rem, q). -/
def restoringSteps (d num : Nat) : Nat → Nat × Nat → Nat × Nat
  | 0, acc => acc
  | i + 1, (rem, q) =>
    let rem' := 2 * rem + (num >>> i) % 2
    if d ≤ rem' then restoringSteps d num i (rem' - d, q + 2 ^ i)
    else restoringSteps d num i (rem', q)

/-- R232: the magnitude of the reciprocal: the quotient of 2^(w−1) by d, saturated where d = 1. -/
def recipMagnitude (w d : Nat) : Nat :=
  let q := (restoringSteps d (2 ^ (w - 1)) w (0, 0)).2
  if 2 ^ (w - 1) - 1 < q then 2 ^ (w - 1) - 1 else q

/-- R232: the reciprocal of n ≠ 0 with its sign put back. -/
def recipValue (w : Nat) (n : Int) : Int :=
  if n < 0 then -(recipMagnitude w n.natAbs : Int) else (recipMagnitude w n.natAbs : Int)

/-- The unit returns a raw word in format (w, f). -/
def fxReturn (w f : Nat) (raw : BitVec 64) (s : State) : State := { s with fxResult := .value w f raw }

/-- R221 FX.RAW. -/
def execFxRaw (fa : Fmt) (s : State) : Host.Outcome State Fault Refusal :=
  .next (fxReturn (fmtWidth fa) (fmtFrac fa) (truncTo (fmtWidth fa) s.opr.k) s)

/-- R223 FX.MUL. -/
def execFxMul (fa fb : Fmt) (s : State) : Host.Outcome State Fault Refusal :=
  .next (fxReturn (fmtWidth fa + fmtWidth fb) (fmtFrac fa + fmtFrac fb)
    (truncTo (fmtWidth fa + fmtWidth fb) (fxA s fa * fxB s fb)) s)

/-- R226 FX.CONV.Q8_8.Q8_0. -/
def execFxConvQ88Q80 (s : State) : Host.Outcome State Fault Refusal :=
  .next (fxReturn 8 0 (truncTo 8 (asr (fxA s .q8_8) 8)) s)

/-- R227 FX.CONV.Q8_8.Q1_7: the low byte, sign-extended by a shift pair on 16 bits, and its low byte kept. -/
def execFxConvQ88Q17 (s : State) : Host.Outcome State Fault Refusal :=
  .next (fxReturn 8 7 (truncTo 8 (asr (s16 (trunc16 (fxA s .q8_8 * 2 ^ 8))) 8)) s)

/-- R228 FX.CONV; a pair R179 does not admit is refused (R180). -/
def execFxConv (fa fb : Fmt) (s : State) : Host.Outcome State Fault Refusal :=
  if convPairOk fa fb then
    .next (fxReturn (fmtWidth fb) (fmtFrac fb)
      (truncTo (fmtWidth fb) (alignPoint (fmtFrac fa) (fmtFrac fb) (fxA s fa))) s)
  else .refused .reservedNum

/-- R230 FX.SADD; operands of two formats are refused (R180). -/
def execFxSadd (fa fb : Fmt) (s : State) : Host.Outcome State Fault Refusal :=
  if fa = fb then
    .next (fxReturn (fmtWidth fa) (fmtFrac fa) (satTo (fmtWidth fa) (fxA s fa + fxB s fb)) s)
  else .refused .reservedNum

/-- R232, R234 FX.RECIP: the result in Q1.(w−1), or the fault RECIP_DIV_ZERO and no value; a format with fraction bits
is refused (R180). -/
def execFxRecip (fa : Fmt) (s : State) : Host.Outcome State Fault Refusal :=
  if recipFmtOk fa then
    .next (if fxA s fa = 0 then raiseFault .recipDivZero s
      else fxReturn (fmtWidth fa) (fmtWidth fa - 1) (truncTo (fmtWidth fa) (recipValue (fmtWidth fa) (fxA s fa))) s)
  else .refused .reservedNum

end Sys2Proof.Machine
end

