-- ==== Sys2Proof/Machine/Dispatch.lean ====
section
/-! DEFINITION. One arm per instruction. -/

namespace Sys2Proof.Machine

def exec (i : Instr) (s : State) : Host.Outcome State Fault Refusal :=
  match i with
  -- CMD
  | .setEnvAttackFor node v => Sys2Proof.Machine.execSetEnvAttackFor node v s
  | .setEnvAttackTo node v => Sys2Proof.Machine.execSetEnvAttackTo node v s
  | .setEnvDecayFor node v => Sys2Proof.Machine.execSetEnvDecayFor node v s
  | .setEnvSustainAt node v => Sys2Proof.Machine.execSetEnvSustainAt node v s
  | .setEnvReleaseFor node v => Sys2Proof.Machine.execSetEnvReleaseFor node v s
  | .setPattern node elem b => Sys2Proof.Machine.execSetPattern node elem b s
  | .setGatelen node elem v => Sys2Proof.Machine.execSetGatelen node elem v s
  | .setOscFreq node v => Sys2Proof.Machine.execSetOscFreq node v s
  | .setOscScale node v => Sys2Proof.Machine.execSetOscScale node v s
  | .loadWave node h => Sys2Proof.Machine.execLoadWave node h s
  -- NUM
  | .fxRaw fa => Sys2Proof.Machine.execFxRaw fa s
  | .fxMul fa fb => Sys2Proof.Machine.execFxMul fa fb s
  | .fxConvQ88Q80 => Sys2Proof.Machine.execFxConvQ88Q80 s
  | .fxConvQ88Q17 => Sys2Proof.Machine.execFxConvQ88Q17 s
  | .fxConv fa fb => Sys2Proof.Machine.execFxConv fa fb s
  | .fxSadd fa fb => Sys2Proof.Machine.execFxSadd fa fb s
  | .fxRecip fa => Sys2Proof.Machine.execFxRecip fa s
  -- DISP
  | .engValidate => Sys2Proof.Machine.execEngValidate s
  | .engIterate => Sys2Proof.Machine.execEngIterate s
  | .engPropagate => Sys2Proof.Machine.execEngPropagate s
  | .engEmit => Sys2Proof.Machine.execEngEmit s
  | .engDrain => Sys2Proof.Machine.execEngDrain s
  | .envStep => Sys2Proof.Machine.execEnvStep s
  | .envTick => Sys2Proof.Machine.execEnvTick s
  | .oscStep => Sys2Proof.Machine.execOscStep s
  | .oscTick => Sys2Proof.Machine.execOscTick s
  | .seqStep => Sys2Proof.Machine.execSeqStep s
  | .seqTick => Sys2Proof.Machine.execSeqTick s
  | .vcaStep => Sys2Proof.Machine.execVcaStep s
  | .vcaTick => Sys2Proof.Machine.execVcaTick s
  | .mixStep => Sys2Proof.Machine.execMixStep s
  | .mixTick => Sys2Proof.Machine.execMixTick s
  | .revStep => Sys2Proof.Machine.execRevStep s
  | .revTick => Sys2Proof.Machine.execRevTick s

end Sys2Proof.Machine
end

