-- ==== Sys2Proof/Machine/Agents.lean ====
section
/-! DEFINITION. The agents' atomic steps (20_memory R133): the strobe (46_engine R450), the HOST accesses (20_memory R121, R122, R130), the HOST close (47_commands R482), the SINK consume (60_exceptions R541), an operation issued alone, and the fetch of an instruction (log 5, log 6). -/

namespace Sys2Proof.Machine

/-! ### HOST (R122, R480, R482) -/

/-- R480: the HOST push. -/
def hostPush (w : CmdWord) (s : State) : Host.Outcome State Fault Refusal :=
  if s.closed then .refused .pushClosed else .next { s with cmdq := s.cmdq ++ [w] }

/-- R482: the HOST close; a second close changes nothing. -/
def hostClose (s : State) : State := { s with closed := true }

/-- R130: the register at an offset. -/
def regAt (off : Nat) : Option HostReg :=
  match off with
  | 0x00 => some .sampleOut
  | 0x04 => some .beatIndex
  | 0x08 => some .execTime
  | 0x0C => some .err
  | 0x10 => some .status
  | _ => none

/-- R50, R122: an aligned reserved word, 0x14 to 0x1C or 0x28 to 0x3C. -/
def reservedAt (off : Nat) : Bool :=
  decide (off % 4 = 0 ∧ (0x14 ≤ off ∧ off ≤ 0x1C ∨ 0x28 ≤ off ∧ off ≤ 0x3C))

/-- R122: an aligned 32-bit write has no effect at 0x00 to 0x1C and at 0x28 to 0x3C. -/
def ignoredWriteAt (off : Nat) : Bool :=
  decide (off % 4 = 0 ∧ (off ≤ 0x1C ∨ 0x28 ≤ off ∧ off ≤ 0x3C))

/-- R122: a 32-bit read at an offset. -/
def hostRead32 (off age : Nat) (s : State) : Host.Outcome State Fault Refusal :=
  match regAt off with
  | some r => .next (readReg r age s)
  | none => if reservedAt off then .next { s with busData := 0 } else .refused .hostAccess

/-- R122: a 32-bit write at an offset. -/
def hostWrite32 (off : Nat) (s : State) : Host.Outcome State Fault Refusal :=
  if ignoredWriteAt off then .next s else .refused .hostAccess

/-- R121, R122: a 64-bit read at an offset. -/
def hostRead64 (off : Nat) (s : State) : Host.Outcome State Fault Refusal :=
  if off = 0x20 then .next { s with busData := 0 } else .refused .hostAccess

/-- R121, R122: a 64-bit write at an offset. -/
def hostWrite64 (off : Nat) (w : CmdWord) (s : State) : Host.Outcome State Fault Refusal :=
  if off = 0x20 then hostPush w s else .refused .hostAccess

/-- R122: an access at an offset of the window; every access the rule does not list is refused. -/
def hostAt (a : Access) (off : Nat) (s : State) : Host.Outcome State Fault Refusal :=
  if a.width = 32 then
    if a.write then hostWrite32 off s else hostRead32 off a.age s
  else if a.width = 64 then
    if a.write then hostWrite64 off a.data s else hostRead64 off s
  else .refused .hostAccess

/-- R122, R130: a HOST access; the offset is counted from HOST_BASE, and alignment is judged on it (log 20). -/
def hostAccess (a : Access) (s : State) : Host.Outcome State Fault Refusal :=
  if a.addr < s.cfg.hostBase then .refused .hostAccess else hostAt a (a.addr - s.cfg.hostBase) s

/-! ### SINK (R44, R541) -/

/-- R541: SINK takes the next unconsumed sample; it has no step when it has caught up. -/
def sinkConsume (s : State) : Host.Outcome State Fault Refusal :=
  match s.outStream[s.sinkPos]? with
  | none => .refused .sinkEmpty
  | some v => .next { s with sinkPos := s.sinkPos + 1, sinkData := v }

/-! ### Operations issued alone (log 5) -/

/-- What a bit pattern that spells no operation does: a command word is discarded with its ERR bit (R175, R176), and a
reserved descriptor is refused (R180), and so, by the model's choice, is a reserved code (R181; log 32). -/
def issueError (e : DecodeError) (s : State) : Host.Outcome State Fault Refusal :=
  match e with
  | .badOpcode => .next (discardWord .badOpcode s)
  | .reservedBits => .next (discardWord .reservedBits s)
  | .reservedNum => .refused .reservedNum
  | .reservedDisp => .refused .reservedDisp

/-- The engine runs one item presented on its path: the decoder's instruction is run (R170). -/
def runItem (it : Item) (s : State) : Host.Outcome State Fault Refusal :=
  match decode it with
  | .ok i => exec i s
  | .error e => issueError e s

/-- An item issued with its operands. In HALTED the ENGINE has no step, and the item is ignored as a strobe is (R458;
log 16). -/
def issueItem (it : Item) (ops : Operands) (s : State) : Host.Outcome State Fault Refusal :=
  if s.run then runItem it { s with opr := ops } else .next s

/-! ### The steps of the agents (R133) -/

/-- R450: one assertion of SAMPLE_STROBE issues ENG.ITERATE. -/
def strobe (s : State) : Host.Outcome State Fault Refusal := exec .engIterate s

/-- R133: one agent action, in the state in which it has left the agenda. -/
def runEvent (e : Event) (s : State) : Host.Outcome State Fault Refusal :=
  match e with
  | .strobe => strobe s
  | .access a => hostAccess a s
  | .close => .next (hostClose s)
  | .consume => sinkConsume s
  | .issue it ops => issueItem it ops s

/-- R133: the next atomic step: the first scheduled action, or else a strobe (log 3). -/
def agentStep (s : State) : Host.Outcome State Fault Refusal :=
  match s.agenda with
  | [] => strobe s
  | e :: rest => runEvent e { s with agenda := rest }

/-- R135: the registers are seen after the step. -/
def publishOutcome (o : Host.Outcome State Fault Refusal) : Host.Outcome State Fault Refusal :=
  match o with
  | .next s => .next (publish s)
  | .fault f => .fault f
  | .refused r => .refused r

/-! ### The fetch -/

/-- R181: the kind of node a DISP code acts on; none for an ENGINE code or another format. -/
def itemKind (it : Item) : Option Kind :=
  match it with
  | .cmd _ => none
  | .num _ => none
  | .disp c =>
    match c.toNat / 16 with
    | 1 => some .env
    | 2 => some .osc
    | 3 => some .seq
    | 4 => some .vca
    | 5 => some .mix
    | 6 => some .rev
    | _ => none

/-- The operands an item is presented with: the ports as they are, with the node port on the first node of the kind the
code acts on, where there is one (log 6). -/
def fetchOperands (it : Item) (s : State) : Operands :=
  match itemKind it with
  | none => s.opr
  | some k => { s.opr with node := (s.nodes.findIdx? (fun n => decide (nodeKind n = k))).getD s.opr.node }

/-- The state in which the next step fetches exactly this item: the ENGINE runs, and the item heads the agenda (log 6). -/
def placeItem (it : Item) (s : State) : State :=
  { s with run := true, agenda := .issue it (fetchOperands it s) :: s.agenda }

/-- `nbits` bits of `w` placed where the next step fetches; a length that is no format's changes nothing. -/
def placeWord (nbits w : Nat) (s : State) : State :=
  match itemOfTable nbits w with
  | none => s
  | some it => placeItem it s

end Sys2Proof.Machine
end

