-- ==== Sys2Proof/Machine/Step.lean ====
section
/-! DEFINITION. One atomic step of one agent (20_memory R133), and where the next step fetches. -/

namespace Sys2Proof.Machine

/-- R133, R135: the next agent's step, after which the host registers are seen. -/
def step (s : State) : Host.Outcome State Fault Refusal := publishOutcome (agentStep s)

/-- The state in which the next step fetches and runs the instruction whose bits are `w` (log 6). -/
def State.withFetchWord (s : State) (nbits w : Nat) : State := placeWord nbits w s

end Sys2Proof.Machine
end

