-- ==== Sys2Proof/Machine/Assembler.lean ====
section
/-! DEFINITION. The assembler, pseudo-instruction, configuration and descriptor syntax (30_encoding R183 to R186). -/

namespace Sys2Proof.Machine

/-! ### Tokens -/

/-- A token of a line: a word, or one of the marks `,` `(` `)` `=` `:`. -/
inductive Token where
  | word (w : String)
  | comma
  | lparen
  | rparen
  | eq
  | colon
  deriving DecidableEq, Repr

/-- The mark a character stands for, if it is one. -/
def tokenOfChar (c : Char) : Option Token :=
  if c = ',' then some .comma
  else if c = '(' then some .lparen
  else if c = ')' then some .rparen
  else if c = '=' then some .eq
  else if c = ':' then some .colon
  else none

/-- A word in progress, put before the tokens that follow it. -/
def flushWord (acc : List Char) (ts : List Token) : List Token :=
  if acc.isEmpty then ts else .word (String.ofList acc.reverse) :: ts

/-- The tokens of a line: words are parted by spaces and marks. -/
def tokensFrom (acc : List Char) : List Char → List Token
  | [] => flushWord acc []
  | c :: cs =>
    if c = ' ' then flushWord acc (tokensFrom [] cs)
    else
      match tokenOfChar c with
      | some t => flushWord acc (t :: tokensFrom [] cs)
      | none => tokensFrom (c :: acc) cs

/-- The tokens of a line. -/
def tokens (line : String) : List Token := tokensFrom [] line.toList

/-! ### Numbers (R183: decimal, possibly negative, or `0x` hexadecimal) -/

/-- The value of a digit in a base up to 16. -/
def digitValue (base : Nat) (c : Char) : Option Nat :=
  let v :=
    if '0' ≤ c ∧ c ≤ '9' then c.toNat - '0'.toNat
    else if 'a' ≤ c ∧ c ≤ 'f' then c.toNat - 'a'.toNat + 10
    else if 'A' ≤ c ∧ c ≤ 'F' then c.toNat - 'A'.toNat + 10
    else 16
  if v < base then some v else none

/-- The number of a digit string, most significant digit first. -/
def digitsValue (base : Nat) : Nat → List Char → Option Nat
  | acc, [] => some acc
  | acc, c :: cs => (digitValue base c).bind fun d => digitsValue base (base * acc + d) cs

/-- A nonempty digit string. -/
def natOfDigits (base : Nat) (cs : List Char) : Option Nat :=
  if cs.isEmpty then none else digitsValue base 0 cs

/-- A number of the syntax. -/
def parseInt (w : String) : Option Int :=
  match w.toList with
  | '-' :: cs => (natOfDigits 10 cs).map fun n => -(n : Int)
  | '0' :: 'x' :: cs => (natOfDigits 16 cs).map fun n => (n : Int)
  | cs => (natOfDigits 10 cs).map fun n => (n : Int)

/-- A number that is not negative. -/
def parseNat (w : String) : Option Nat :=
  (parseInt w).bind fun z => if 0 ≤ z then some z.toNat else none

/-- R183: a 16-bit operand: 0 to 65535, or a negative level as its two's complement. -/
def parseWord (w : String) : Option Word :=
  (parseInt w).bind fun z => if -32768 ≤ z ∧ z ≤ 65535 then some (BitVec.ofInt 16 z) else none

/-- An unsigned 16-bit operand (a duration or a gate length, R173). -/
def parseU16 (w : String) : Option Word :=
  (parseNat w).bind fun n => if n ≤ 65535 then some (BitVec.ofNat 16 n) else none

/-- R183: a node operand: `n<k>`, or a node name resolved to its index. A node so named wins over `n<k>`. -/
def parseNode (c : Config) (w : String) : Option (BitVec 8) :=
  let named := nodeIndex c w
  let k :=
    match named with
    | some i => some i
    | none =>
      match w.toList with
      | 'n' :: cs => natOfDigits 10 cs
      | _ => none
  k.bind fun i => if i ≤ 255 then some (BitVec.ofNat 8 i) else none

/-- An 8-bit element operand. -/
def parseElem (w : String) : Option (BitVec 8) :=
  (parseNat w).bind fun n => if n ≤ 255 then some (BitVec.ofNat 8 n) else none

/-- R183: the bit of SET_PATTERN, 0 or 1. -/
def parseBit (w : String) : Option Bool :=
  (parseNat w).bind fun n => if n = 0 then some false else if n = 1 then some true else none

/-- R183: the handle of LOAD_WAVE, 32 bits. -/
def parseHandle (w : String) : Option (BitVec 32) :=
  (parseNat w).bind fun n => if n < 2 ^ 32 then some (BitVec.ofNat 32 n) else none

/-- R186: a format name. -/
def parseFmt (w : String) : Option Fmt :=
  [("Q1.7", Fmt.q1_7), ("Q8.0", .q8_0), ("Q16.0", .q16_0), ("Q1.15", .q1_15), ("Q8.8", .q8_8), ("Q1.31", .q1_31),
    ("Q16.15", .q16_15), ("Q32.0", .q32_0)].lookup w

/-! ### Commands and pseudo-instructions (R183, R184) -/

/-- The operands of a line after its mnemonic: words parted by commas. -/
def operandWords : List Token → Option (List String)
  | [] => some []
  | [.word w] => some [w]
  | .word w :: .comma :: t :: ts => (operandWords (t :: ts)).map fun ws => w :: ws
  | _ => none

/-- R184: SET_ENV_ADSR. -/
def expandAdsr (n : BitVec 8) (af at' df sa rf : Word) : List Instr :=
  [.setEnvAttackFor n af, .setEnvAttackTo n at', .setEnvDecayFor n df, .setEnvSustainAt n sa, .setEnvReleaseFor n rf]

/-- R184: SET_PATTERN_MASK, in increasing step order. -/
def expandPatternMask (n : BitVec 8) (m : Word) : List Instr :=
  (List.range 16).map fun i => .setPattern n (BitVec.ofNat 8 i) (m.getLsbD i)

/-- R184: SET_GATELEN_ALL, in increasing step order. -/
def expandGatelenAll (n : BitVec 8) (v : Word) : List Instr :=
  (List.range 16).map fun i => .setGatelen n (BitVec.ofNat 8 i) v

/-- R184: SET_OSC. -/
def expandOsc (n : BitVec 8) (note depth : Word) : List Instr := [.setOscFreq n note, .setOscScale n depth]

/-- R183, R184: a command or pseudo-instruction with its operands, as the commands it stands for. -/
def assembleCmd (c : Config) (mnemonic : String) (args : List String) : Option (List Instr) :=
  match args with
  | [n, v] =>
    (parseNode c n).bind fun k =>
      if mnemonic = "SET_ENV_ATTACK_FOR" then (parseU16 v).map fun x => [.setEnvAttackFor k x]
      else if mnemonic = "SET_ENV_ATTACK_TO" then (parseWord v).map fun x => [.setEnvAttackTo k x]
      else if mnemonic = "SET_ENV_DECAY_FOR" then (parseU16 v).map fun x => [.setEnvDecayFor k x]
      else if mnemonic = "SET_ENV_SUSTAIN_AT" then (parseWord v).map fun x => [.setEnvSustainAt k x]
      else if mnemonic = "SET_ENV_RELEASE_FOR" then (parseU16 v).map fun x => [.setEnvReleaseFor k x]
      else if mnemonic = "SET_OSC_FREQ" then (parseWord v).map fun x => [.setOscFreq k x]
      else if mnemonic = "SET_OSC_SCALE" then (parseWord v).map fun x => [.setOscScale k x]
      else if mnemonic = "LOAD_WAVE" then (parseHandle v).map fun x => [.loadWave k x]
      else if mnemonic = "SET_PATTERN_MASK" then (parseU16 v).map fun x => expandPatternMask k x
      else if mnemonic = "SET_GATELEN_ALL" then (parseU16 v).map fun x => expandGatelenAll k x
      else none
  | [n, x, y] =>
    (parseNode c n).bind fun k =>
      if mnemonic = "SET_PATTERN" then
        (parseElem x).bind fun i => (parseBit y).map fun b => [.setPattern k i b]
      else if mnemonic = "SET_GATELEN" then
        (parseElem x).bind fun i => (parseU16 y).map fun v => [.setGatelen k i v]
      else if mnemonic = "SET_OSC" then
        (parseWord x).bind fun v => (parseWord y).map fun d => expandOsc k v d
      else none
  | [n, af, a, df, sa, rf] =>
    (parseNode c n).bind fun k =>
      if mnemonic = "SET_ENV_ADSR" then
        (parseU16 af).bind fun v1 => (parseWord a).bind fun v2 => (parseU16 df).bind fun v3 =>
          (parseWord sa).bind fun v4 => (parseU16 rf).map fun v5 => expandAdsr k v1 v2 v3 v4 v5
      else none
  | _ => none

/-- R183: one line of command syntax. -/
def assembleLine (c : Config) (line : String) : Option (List Instr) :=
  match tokens line with
  | .word m :: ts => (operandWords ts).bind fun ws => assembleCmd c m ws
  | _ => none

/-- R184: the command words of a line, pushed in this order. -/
def assembleWords (c : Config) (line : String) : Option (List CmdWord) :=
  (assembleLine c line).map fun is => is.filterMap fun i =>
    match encode i with
    | .cmd w => some w
    | .num _ => none
    | .disp _ => none

/-- R186: one line of numeric-descriptor syntax; a descriptor that spells no operation is no line (R180). -/
def assembleNum (line : String) : Option Instr :=
  match tokens line with
  | .word m :: ts =>
    (operandWords ts).bind fun ws =>
      match ws.mapM parseFmt with
      | some [fa] =>
        if m = "FX.RAW" then some (.fxRaw fa)
        else if m = "FX.RECIP" then (if recipFmtOk fa then some (.fxRecip fa) else none)
        else none
      | some [fa, fb] =>
        if m = "FX.MUL" then some (.fxMul fa fb)
        else if m = "FX.CONV" then (if fa = fb then none else some (convRow fa fb))
        else if m = "FX.SADD" then (if fa = fb then some (.fxSadd fa fb) else none)
        else none
      | _ => none
  | _ => none

/-! ### Configurations (R185) -/

/-- R185: `<node>.<port>`, parted at the first full stop (where a name holds one, the model's choice, log 35). -/
def parsePort (w : String) : Option PortName :=
  match w.toList.span (fun ch => ch ≠ '.') with
  | (a, _ :: b) => some { node := String.ofList a, port := String.ofList b }
  | (_, []) => none

/-- R185: a waveform name; any other name is kept and rejected at validation (R440). -/
def parseWave (w : String) : WaveName :=
  if w = "Sine" then .known .sine
  else if w = "Saw" then .known .saw
  else if w = "Triangle" then .known .triangle
  else if w = "Square" then .known .square
  else if w = "WhiteNoise" then .known .whiteNoise
  else if w = "Custom" then .known .custom
  else .unknown w

/-- R58, R185: a kind name with its default configuration. -/
def parseKind (w : String) : Option KCfg :=
  [("ENV", KCfg.env), ("OSC", .osc (.known .sine)), ("SEQ", .seq 0 []), ("VCA", .vca), ("MIX", .mix),
    ("REV", .rev [])].lookup w

/-- A list of words parted by commas up to a closing mark, with what follows it. -/
def wordList : List Token → Option (List String × List Token)
  | .word w :: .comma :: ts => (wordList ts).map fun r => (w :: r.1, r.2)
  | .word w :: .rparen :: ts => some ([w], ts)
  | _ => none

/-- R185: a list of `(<L>,<G>)` up to a closing mark, with what follows it. Commas between the taps are not insisted on
(DESIGN CHOICE, log 35). -/
def tapList : List Token → Option (List TapCfg × List Token)
  | .rparen :: ts => some ([], ts)
  | .comma :: ts => tapList ts
  | .lparen :: .word l :: .comma :: .word g :: .rparen :: ts =>
    (parseNat l).bind fun len => (parseWord g).bind fun gain => (tapList ts).map fun r => ({ len, gain } :: r.1, r.2)
  | _ => none

/-- R185: one attribute of a node line with its value, and what follows it. DESIGN CHOICE (log 33): R185 allows `wave`,
`pattern`, `gatelen` and `taps` after any kind and gives no meaning to one of another kind than the node's; here the line
is then no line of the syntax. DESIGN CHOICE (log 34): of such an attribute given twice the last counts, of a port given
twice the first (log 18). DESIGN CHOICE (log 33): `taps=` with a bare word in place of its list is read as
`<port>=<value>`, on any kind, and kept in `init_in` under the port name `taps`, which is no port. A number out of its range makes the line no line (DESIGN CHOICE, log 35). -/
def nodeAttr (nc : NodeCfg) : List Token → Option (NodeCfg × List Token)
  | .word "taps" :: .eq :: .lparen :: ts =>
    (tapList ts).bind fun r =>
      match nc.kcfg with
      | .rev _ => some ({ nc with kcfg := .rev r.1 }, r.2)
      | _ => none
  | .word "gatelen" :: .eq :: .lparen :: ts =>
    (wordList ts).bind fun r => (r.1.mapM parseU16).bind fun g =>
      match nc.kcfg with
      | .seq p _ => if g.length = 16 then some ({ nc with kcfg := .seq p g }, r.2) else none
      | _ => none
  | .word "gatelen" :: .eq :: .word v :: ts =>
    (parseU16 v).bind fun x =>
      match nc.kcfg with
      | .seq p _ => some ({ nc with kcfg := .seq p (List.replicate 16 x) }, ts)
      | _ => none
  | .word "pattern" :: .eq :: .word v :: ts =>
    (parseU16 v).bind fun x =>
      match nc.kcfg with
      | .seq _ g => some ({ nc with kcfg := .seq x g }, ts)
      | _ => none
  | .word "wave" :: .eq :: .word v :: ts =>
    match nc.kcfg with
    | .osc _ => some ({ nc with kcfg := .osc (parseWave v) }, ts)
    | _ => none
  | .word p :: .eq :: .word v :: ts =>
    (parseWord v).map fun x => ({ nc with initIn := nc.initIn ++ [(p, x)] }, ts)
  | _ => none

/-- R185: the attributes of a node line, from the left; `fuel` bounds their number. DESIGN CHOICE (log 36): R185 writes the
ports first, then `wave`, `pattern`, `gatelen` and `taps`, and does not say whether that order is insisted on; here they
may stand in any order, interleaved. -/
def nodeAttrs : Nat → NodeCfg → List Token → Option NodeCfg
  | _, nc, [] => some nc
  | 0, _, _ :: _ => none
  | fuel + 1, nc, t :: ts => (nodeAttr nc (t :: ts)).bind fun r => nodeAttrs fuel r.1 r.2

/-- R185: one line of configuration syntax added to the configuration so far. DESIGN CHOICE (log 34): R185 does not say
what a second `output` or `tick_period` line means; here the last one counts. A TICK_PERIOD of 2^32 or more is no line
(DESIGN CHOICE, log 35). -/
def configLine (c : Config) (line : String) : Option Config :=
  match tokens line with
  | .word "node" :: .word name :: .colon :: .word kind :: ts =>
    (parseKind kind).bind fun k =>
      (nodeAttrs ts.length { name, kcfg := k, initIn := [] } ts).map fun nc => { c with nodes := c.nodes ++ [nc] }
  | [.word "wire", .word a, .word "->", .word b] =>
    (parsePort a).bind fun src => (parsePort b).map fun dst => { c with wires := c.wires ++ [{ src, dst }] }
  | [.word "output", .word a] => (parsePort a).map fun p => { c with output := p }
  | [.word "tick_period", .word v] =>
    (parseNat v).bind fun n => if n < 2 ^ 32 then some { c with tickPeriod := BitVec.ofNat 32 n } else none
  | _ => none

/-- R185: a configuration from its lines; the ROMs and arguments, and an output or tick period no line gives, are those
of `base` (log 31); one line that is none of the syntax leaves no configuration (DESIGN CHOICE, log 35). -/
def assembleConfig (base : Config) (lines : List String) : Option Config :=
  lines.foldlM configLine { base with nodes := [], wires := [] }

end Sys2Proof.Machine
end

