-- ==== Sys2Proof/Safety.lean ====
section
/-! DEFINITION. What a good state is, in the terms the statements use: the invariant every step keeps. -/

namespace Sys2Proof.Machine

/-- R57, R125: a tap has its L_t entries and its position lies below L_t. -/
def tapWf (tc : TapCfg) (t : TapSt) : Prop := Memory.wf tc.len t.buf ∧ t.pos < tc.len

/-- R54, R56, R57, R373: the private fields have the widths and sizes the configuration gives them, and a SEQ node's
outputs are driven from its flags. -/
def bodyWf (c : Config) (nc : NodeCfg) (n : Node) : Prop :=
  match n.body with
  | .env _ => True
  | .osc o => o.phase < 2 ^ c.wPhase ∧ Memory.wf (nTable c) o.custom
  | .seq q => Memory.wf 16 q.gatelen ∧ n.outs = [driveLevel q.gateR, driveLevel q.trigR]
  | .vca => True
  | .mix => True
  | .rev ts =>
    match nc.kcfg with
    | .rev tcs => List.Forall₂ tapWf tcs ts
    | .env => False
    | .osc _ => False
    | .seq _ _ => False
    | .vca => False
    | .mix => False

/-- R51, R52: a node is of its configured kind and has one latch per input port and one register per output port. -/
def nodeWf (c : Config) (nc : NodeCfg) (n : Node) : Prop :=
  nodeKind n = kcfgKind nc.kcfg ∧ n.ins.length = (inPorts (nodeKind n)).length ∧
    n.outs.length = (outPorts (nodeKind n)).length ∧ bodyWf c nc n

/-- What holds of every reachable state and is kept by every step. -/
structure Inv (s : State) : Prop where
  /-- R440 to R443: the configuration is accepted, and the graph is the one it resolves to -/
  accepted : validate s.cfg = .ok s.graph
  /-- R11, R585 -/
  legal : legalArgs s.cfg
  /-- R51: one node per entry of NODES, in the same order -/
  nodes : List.Forall₂ (nodeWf s.cfg) s.cfg.nodes s.nodes
  /-- R452: TICK_CTR counts below TICK_PERIOD -/
  tick : s.tickCtr.toNat < s.cfg.tickPeriod.toNat
  /-- R456: BUF_CTR counts below BUFFER_LEN -/
  buf : s.bufCtr.toNat < s.cfg.bufferLen
  /-- R45: bits 31..16 of SAMPLE_OUT read as 0 -/
  sample : s.sampleOut.toNat < 2 ^ 16
  /-- R46: bits 31..4 of BEAT_INDEX read as 0 -/
  beat : s.beatIndex.toNat < 2 ^ 4
  /-- R48: bits 31..6 of ERR read as 0 -/
  err : s.err.toNat < 2 ^ 6
  /-- R458, R482: the block halts only with the channel closed and drained -/
  halted : s.run = false → s.closed = true ∧ s.cmdq = []
  /-- R541: SINK never passes the stream -/
  sink : s.sinkPos ≤ s.outStream.length
  /-- R135: the youngest value of every window is the register's present value -/
  seen : ∀ r : HostReg, (window s.seen r).getLast? = some (hostReg s r)

end Sys2Proof.Machine
end

