-- ==== Sys2Proof/Certificates/Slice0/Obligations.lean ====
section
/-! DEFINITION. The statements about SYNTH-CORE, each from the numbered rules of spec/ its docstring names. -/

open Sys2Proof Sys2Proof.Machine

/-! ### Words the statements use -/

/-- Node i becomes m, and nothing else changes. -/
def Sys2Proof.Claims.putNode (s : State) (i : Nat) (m : Node) : State := { s with nodes := s.nodes.set i m }

/-- R291: `trig_armed` after TRIGGER_DETECT of level v. -/
def Sys2Proof.Claims.armedAfter (v : Int) (armed : Bool) : Bool :=
  if v < 8192 then true else if 24576 < v ∧ armed = true then false else armed

/-- R291: whether level v fires the trigger. -/
def Sys2Proof.Claims.fires (v : Int) (armed : Bool) : Bool := decide (24576 < v ∧ armed = true)

/-- R292: `gate_open` after GATE_DETECT of level v. -/
def Sys2Proof.Claims.gateAfter (v : Int) (gate : Bool) : Bool :=
  if 24576 < v then true else if v < 8192 then false else gate

/-- The operand port names node n, an ENV node with private fields e. -/
def Sys2Proof.Claims.OnEnv (s : State) (n : Node) (e : EnvSt) : Prop :=
  s.nodes[s.opr.node]? = some n ∧ n.body = .env e

/-- The trigger fires in this step of an ENV node (R291). -/
abbrev Sys2Proof.Claims.Triggered (n : Node) (e : EnvSt) : Prop :=
  Claims.fires (n.ins.getD 5 0).toInt e.trigArmed = true

/-- The gate as R292 leaves it in this step of an ENV node. -/
def Sys2Proof.Claims.gateNow (n : Node) (e : EnvSt) : Bool :=
  Claims.gateAfter (n.ins.getD 6 0).toInt e.gateOpen

/-- The state in which the operand node has output `out` and private fields e, and nothing else has changed. -/
def Sys2Proof.Claims.withEnv (s : State) (n : Node) (out : Word) (e : EnvSt) : State :=
  (Claims.putNode s s.opr.node { n with outs := n.outs.set 0 out, body := .env e })

/-- The private fields of an ENV node after the detectors, with the given state, counter and gate. -/
def Sys2Proof.Claims.fields (n : Node) (e : EnvSt) (st : EnvState) (counter : BitVec 16) (gate : Bool) : EnvSt :=
  { state := st, counter := counter,
    trigArmed := Claims.armedAfter (n.ins.getD 5 0).toInt e.trigArmed, gateOpen := gate }

/-- R230: the sum of two signed readings clamped to a width. -/
def Sys2Proof.Claims.clampTo (w : Nat) (v : Int) : Int :=
  if v < -(2 ^ (w - 1)) then -(2 ^ (w - 1)) else if 2 ^ (w - 1) - 1 < v then 2 ^ (w - 1) - 1 else v

/-- The signed reading of the low w bits of a result word. -/
def Sys2Proof.Claims.sres (w : Nat) (raw : BitVec 64) : Int := (raw.setWidth w).toInt

/-- The 24-bit exact value of R229, floor(a·b / 2^15) of two signed words. -/
def Sys2Proof.Claims.mul15 (a b : Word) : Int := a.toInt * b.toInt / 32768

/-- R187, R441: a configured port resolves to the node of its name and, among that kind's ports, to the port of its name;
a name that is no such port resolves to the null port. -/
def Sys2Proof.Claims.Port (c : Config) (ports : Kind → List String) (pn : PortName) (i : Nat) (ref : Option Nat) : Prop :=
  ∃ nc, c.nodes[i]? = some nc ∧ nc.name = pn.node ∧ ∀ k, ref = some k ↔ (ports (kcfgKind nc.kcfg))[k]? = some pn.port

/-- R441: the graph a configuration resolves to. -/
def Sys2Proof.Claims.Resolves (c : Config) (g : Graph) : Prop :=
  g.kinds = c.nodes.map (fun nc => kcfgKind nc.kcfg) ∧
  g.inits = c.nodes.map (fun nc => (inPorts (kcfgKind nc.kcfg)).map fun p => (nc.initIn.lookup p).getD 0) ∧
  List.Forall₂ (fun w r => Claims.Port c outPorts w.src r.src r.srcPort ∧ Claims.Port c inPorts w.dst r.dst r.dstPort)
    c.wires g.wires ∧
  Claims.Port c outPorts c.output g.outNode g.outPort

/-- R11, R295: ENV_RAMP_DIV: truncating division, or the other total function the configuration names (log 11). -/
def Sys2Proof.Claims.ramp (c : Config) (num : Int) (den : Nat) : Int :=
  match c.rampDiv with
  | .tdiv => num.tdiv den
  | .other k => Config.rampDivFn k num den

/-- n repeated steps of a function that answers a node. -/
def Sys2Proof.Claims.iter (f : Node → Option Node) : Nat → Node → Option Node
  | 0, n => some n
  | k + 1, n => (f n).bind (Sys2Proof.Claims.iter f k)

/-- R450: the state after k engine iterations, one after the other. -/
def Sys2Proof.Claims.iterations : Nat → State → Option State
  | 0, s => some s
  | k + 1, s =>
    match exec .engIterate s with
    | .next t => Sys2Proof.Claims.iterations k t
    | .fault _ => none
    | .refused _ => none

/-- R183: the characters are the digits of n in a base up to 16, most significant first. -/
def Sys2Proof.Claims.Digits (base : Nat) (cs : List Char) (n : Nat) : Prop :=
  cs ≠ [] ∧ ∃ ds : List Nat, ds.foldl (fun a d => base * a + d) 0 = n ∧
    List.Forall₂ (fun ch d => d < base ∧
      ("0123456789abcdef".toList[d]? = some ch ∨ "0123456789ABCDEF".toList[d]? = some ch)) cs ds

/-- R183: a word spells a number: decimal, negative decimal, or `0x` hexadecimal. -/
def Sys2Proof.Claims.Spells (w : String) (z : Int) : Prop :=
  (∃ n : Nat, Claims.Digits 10 w.toList n ∧ z = n) ∨
  (∃ (cs : List Char) (n : Nat), w.toList = '-' :: cs ∧ Claims.Digits 10 cs n ∧ z = -n) ∨
  (∃ (cs : List Char) (n : Nat), w.toList = '0' :: 'x' :: cs ∧ Claims.Digits 16 cs n ∧ z = n)

/-- R183: a word without spaces and marks that names node k: the name of the first node so named, or, where no node has
that name, `n` with the decimal digits of k (that a name wins is the model's choice, log 31). -/
def Sys2Proof.Claims.NodeWord (c : Config) (w : String) (k : BitVec 8) : Prop :=
  w.toList ≠ [] ∧ (∀ ch ∈ w.toList, ch ∉ [' ', ',', '(', ')', '=', ':']) ∧
  ((∃ nc, c.nodes[k.toNat]? = some nc ∧ nc.name = w ∧
      ∀ j, j < k.toNat → ∀ nc', c.nodes[j]? = some nc' → nc'.name ≠ w) ∨
    ((∀ nc ∈ c.nodes, nc.name ≠ w) ∧ ∃ cs, w.toList = 'n' :: cs ∧ Claims.Digits 10 cs k.toNat))

/-- A line assembles to words that decode, in order, to the commands given. -/
def Sys2Proof.Claims.Assembles (c : Config) (line : String) (is : List Instr) : Prop :=
  ∃ ws, assembleWords c line = some ws ∧ ws.map decodeCmd = is.map Except.ok

/-- R122, R130: an aligned 32-bit read of a register. -/
def Sys2Proof.Claims.Reads (s : State) (a : Access) (r : HostReg) : Prop :=
  a.write = false ∧ a.width = 32 ∧ ∃ off, a.addr = s.cfg.hostBase + off ∧
    (off, r) ∈ [(0x00, HostReg.sampleOut), (0x04, .beatIndex), (0x08, .execTime), (0x0C, .err), (0x10, .status)]

/-- R135: a window with a register's present value at its young end, entered where it differs from the youngest. -/
def Sys2Proof.Claims.seenAfter (w : List HostWord) (v : HostWord) : List HostWord :=
  if w.getLast? = some v then w else w ++ [v]

/-! ### Encoding -/

/-- R170 to R181: decoding the encoding of a well-formed instruction gives it back, with every operand. -/
def Obligations.DecodeOfEncodeIsTheInstruction : Prop :=
  ∀ i : Instr, i.wf = true → decode (encode i) = .ok i

/-- R170 to R181: an item that decodes is the encoding of a well-formed instruction: no two items mean the same and no
bit is read twice or dropped. -/
def Obligations.DecodedItemIsTheEncoding : Prop :=
  ∀ (it : Item) (i : Instr), decode it = .ok i → i.wf = true ∧ encode i = it

/-- Words written out in the spec's examples (R183, R186, R487, R494, R497) and of R181's map decode to what they stand for. -/
def Obligations.ExampleWordsDecode : Prop :=
  decodeTableWord 64 0x0100000000000064 = some (.setEnvAttackFor 0 100) ∧
  decodeTableWord 64 0x1000040000000001 = some (.setPattern 0 4 true) ∧
  decodeTableWord 64 0x2002000000000045 = some (.setOscFreq 2 69) ∧
  decodeTableWord 64 0x3000000000000007 = some (.loadWave 0 7) ∧
  decodeTableWord 32 0x13300000 = some (.fxMul .q1_15 .q1_15) ∧
  decodeTableWord 32 0x24100000 = some .fxConvQ88Q80 ∧
  decodeTableWord 8 0x31 = some .seqTick

/-- R175, R483, R484: applying a word with an unassigned opcode sets ERR bit 0 alone; applying a word with an assigned
opcode and a set bit under its mask (R174) sets ERR bit 1 alone; nothing else changes. -/
def Obligations.UndecodableCommandSetsOneBit : Prop :=
  ∀ (w : CmdWord) (s : State),
    ((w.extractLsb' 56 8).toNat ∉ [0x01, 0x02, 0x03, 0x04, 0x05, 0x10, 0x11, 0x20, 0x21, 0x30] →
      applyWord w s = { s with err := s.err ||| 1 }) ∧
    ((w.extractLsb' 56 8).toNat ∈ [0x01, 0x02, 0x03, 0x04, 0x05, 0x20, 0x21] → w &&& 0x0000FFFFFFFF0000 ≠ 0 →
      applyWord w s = { s with err := s.err ||| 2 }) ∧
    ((w.extractLsb' 56 8).toNat = 0x10 → w &&& 0x000000FFFFFFFFFE ≠ 0 →
      applyWord w s = { s with err := s.err ||| 2 }) ∧
    ((w.extractLsb' 56 8).toNat = 0x11 → w &&& 0x000000FFFFFF0000 ≠ 0 →
      applyWord w s = { s with err := s.err ||| 2 }) ∧
    ((w.extractLsb' 56 8).toNat = 0x30 → w &&& 0x0000FFFF00000000 ≠ 0 →
      applyWord w s = { s with err := s.err ||| 2 })

/-- Issuing any code the dispatch map of R181 does not assign is refused: the model's choice (log 32), since R181 says only
that such a code is never issued. R180: a descriptor with a reserved FOP, a reserved code, a nonzero bit in 19..0, FX.SADD
with FA ≠ FB, FX.CONV with FA = FB, FX.RECIP of a format other than codes 1, 2, 7, or FB ≠ 0 on FX.RAW or FX.RECIP is
refused when it is run; and so is the meaning of every term no descriptor spells. That one can be issued at all is the
model's (log 5). -/
def Obligations.ReservedCodesAreRefused : Prop :=
  (∀ (c : BitVec 8) (s : State),
    c.toNat ∉ [0x00, 0x01, 0x02, 0x03, 0x04, 0x10, 0x11, 0x20, 0x21, 0x30, 0x31, 0x40, 0x41, 0x50, 0x51, 0x60, 0x61] →
    runItem (.disp c) s = .refused .reservedDisp) ∧
  (∀ (i : Instr) (s : State), i.wf = false → exec i s = .refused .reservedNum) ∧
  ∀ (d : BitVec 32) (s : State),
    let fop := (d.extractLsb' 28 4).toNat
    let fa := (d.extractLsb' 24 4).toNat
    let fb := (d.extractLsb' 20 4).toNat
    (5 ≤ fop ∨ 8 ≤ fa ∨ 8 ≤ fb ∨ (d.extractLsb' 0 20).toNat ≠ 0 ∨ (fop = 3 ∧ fa ≠ fb) ∨ (fop = 2 ∧ fa = fb) ∨
      (fop = 4 ∧ fa ∉ [1, 2, 7]) ∨ ((fop = 0 ∨ fop = 4) ∧ fb ≠ 0)) →
    runItem (.num d) s = .refused .reservedNum

/-! ### The step -/

/-- R133, R170: when an item heads the agenda and the block runs, and the item decodes to i, the step is exec of i in
the state whose operand ports hold the item's operands and whose agenda has moved on, after which the host registers are
seen. When `nbits` bits of w placed at the fetch decode to i, the step is exec of i in the state whose operand ports
hold what the fetch presents. -/
def Obligations.StepRunsTheDecodedInstruction : Prop :=
  (∀ (s : State) (it : Item) (ops : Operands) (rest : List Event) (i : Instr),
    s.run = true → s.agenda = .issue it ops :: rest → decode it = .ok i →
    step s = publishOutcome (exec i { s with agenda := rest, opr := ops })) ∧
  (∀ (s : State) (nbits w : Nat) (i : Instr), decodeTableWord nbits w = some i →
    ∃ it, itemOfTable nbits w = some it ∧ decode it = .ok i ∧
      step (s.withFetchWord nbits w) =
        publishOutcome (exec i { s with run := true, opr := fetchOperands it s }))

/-- R450, R530: no step of any agent ends in a fault. -/
def Obligations.NoStepEndsInAFault : Prop :=
  ∀ (s : State) (f : Fault), step s ≠ .fault f

/-- The invariant holds right after reset, with the configuration of log 1 (R580, R581). -/
def Obligations.ResetStateIsGood : Prop := Inv State.reset

/-- Every step of every agent keeps the invariant `Inv`: the configuration stays accepted and the graph its own, the
node list matches NODES, table sizes, the phase width, the positions and TICK_CTR and BUF_CTR stay in range, SEQ
outputs follow their flags, a halted block has a closed channel and an empty queue, and the reserved bits of the host
registers stay 0. -/
def Obligations.EveryStepKeepsTheInvariant : Prop :=
  ∀ s t : State, Inv s → step s = .next t → Inv t

/-- R580, R581, R51, R52: reset of a configuration that validates gives this state, each node with the latches and output
registers of its kind; of a rejected one, none. Where init_in names a port twice the first entry counts (the model's
choice, log 18), and a gatelen0 that is not 16 long is cut to 16 entries or filled with 0 (the model's reading, log 22). -/
def Obligations.ResetBuildsTheStateOfTheConfiguration : Prop :=
  (∀ (c : Config) (g : Graph), validate c = .ok g →
    ∃ s, resetWith c = .ok s ∧ s.cfg = c ∧ s.graph = g ∧ s.run = true ∧ s.tickCtr = 0 ∧ s.bufCtr = 0 ∧
      s.sampleIndex = 0 ∧ s.cmdq = [] ∧ s.closed = false ∧ s.outStream = [] ∧ s.sampleOut = 0 ∧ s.execTime = 0 ∧
      s.err = 0 ∧ statusWord s = 5 ∧
      s.beatIndex = (if ∃ nc ∈ c.nodes, kcfgKind nc.kcfg = .seq then 15 else 0) ∧
      s.nodes.length = c.nodes.length ∧
      ∀ (i : Nat) (n : Node) (nc : NodeCfg), s.nodes[i]? = some n → c.nodes[i]? = some nc →
        nodeKind n = kcfgKind nc.kcfg ∧
        (n.ins.length, n.outs.length) = (match kcfgKind nc.kcfg with
          | .env => (7, 1)
          | .osc => (3, 1)
          | .seq => (0, 2)
          | .vca => (2, 1)
          | .mix => (4, 1)
          | .rev => (1, 1)) ∧
        (∀ v ∈ n.outs, v = 0) ∧
        (∀ (p : Nat) (name : String), (inPorts (kcfgKind nc.kcfg))[p]? = some name →
          n.ins[p]? = some ((nc.initIn.lookup name).getD 0)) ∧
        (∀ e, n.body = .env e → e = { state := .off, counter := 0, trigArmed := false, gateOpen := false }) ∧
        (∀ o, n.body = .osc o → o.phase = 0 ∧ o.custom = List.replicate (2 ^ c.tableBits) 0 ∧
          ∀ w, nc.kcfg = .osc (.known w) → o.wave = w) ∧
        (∀ q, n.body = .seq q → q.beat = 15 ∧ q.elapsed = 0 ∧ q.gateR = false ∧ q.trigR = false ∧
          q.gatelen.length = 16 ∧ ∀ p g, nc.kcfg = .seq p g → q.pattern = p ∧ ∀ j, j < 16 → q.gatelen[j]? = some (g.getD j 0)) ∧
        (∀ ts, n.body = .rev ts → ∀ tcs, nc.kcfg = .rev tcs →
          ts = tcs.map fun tc => { buf := List.replicate tc.len 0, pos := 0 })) ∧
  (∀ (c : Config) (r : RejectReason), validate c = .error r → resetWith c = .error r)

/-! ### Commands -/

/-- R487 to R491, R494, R495: on a node of the opcode's kind, each SET_ENV command, SET_OSC_FREQ (`freq`) and SET_OSC_SCALE
(`mod_depth`) writes its one latch with the operand as it is, and changes nothing else. -/
def Obligations.LatchCommandWritesItsLatch : Prop :=
  ∀ (node : BitVec 8) (v : Word) (s : State) (n : Node), s.nodes[node.toNat]? = some n →
    (nodeKind n = .env →
      exec (.setEnvAttackFor node v) s =
        .next (Claims.putNode s node.toNat { n with ins := n.ins.set 0 v }) ∧
      exec (.setEnvAttackTo node v) s =
        .next (Claims.putNode s node.toNat { n with ins := n.ins.set 1 v }) ∧
      exec (.setEnvDecayFor node v) s =
        .next (Claims.putNode s node.toNat { n with ins := n.ins.set 2 v }) ∧
      exec (.setEnvSustainAt node v) s =
        .next (Claims.putNode s node.toNat { n with ins := n.ins.set 3 v }) ∧
      exec (.setEnvReleaseFor node v) s =
        .next (Claims.putNode s node.toNat { n with ins := n.ins.set 4 v })) ∧
    (nodeKind n = .osc →
      exec (.setOscFreq node v) s =
        .next (Claims.putNode s node.toNat { n with ins := n.ins.set 0 v }) ∧
      exec (.setOscScale node v) s =
        .next (Claims.putNode s node.toNat { n with ins := n.ins.set 2 v }))

/-- R492, R493: on a SEQ node and a step up to 15, SET_PATTERN makes that step's bit b and leaves the other fifteen,
SET_GATELEN writes that step's entry, and neither changes anything else. -/
def Obligations.SeqCommandWritesItsEntry : Prop :=
  ∀ (node elem : BitVec 8) (b : Bool) (v : Word) (s : State) (n : Node) (q : SeqSt),
    s.nodes[node.toNat]? = some n → n.body = .seq q → elem.toNat ≤ 15 →
    (∃ p : BitVec 16,
      exec (.setPattern node elem b) s =
        .next (Claims.putNode s node.toNat { n with body := .seq { q with pattern := p } }) ∧
      ∀ j, j < 16 → p.getLsbD j = if j = elem.toNat then b else q.pattern.getLsbD j) ∧
    exec (.setGatelen node elem v) s =
      .next (Claims.putNode s node.toNat
        { n with body := .seq { q with gatelen := q.gatelen.set elem.toNat v } })

/-- R496, R497: on an OSC node, LOAD_WAVE takes one answer. A list r overwrites the entries of CUSTOM below
min(|r|, N_TABLE) and selects Custom; a failure sets ERR bit 4. Nothing else of the block changes. The answer is the
next one WSRC has ready; with none ready it is the free draw, and one more value counts as drawn (log 7). -/
def Obligations.LoadWaveCopiesTheAnswer : Prop :=
  ∀ (node : BitVec 8) (h : BitVec 32) (s : State) (n : Node) (o : OscSt),
    s.nodes[node.toNat]? = some n → n.body = .osc o → o.custom.length = 2 ^ s.cfg.tableBits →
    ∀ (a : WaveAnswer) (s' : State),
      (∃ rest, s.wsrcAnswers = a :: rest ∧ s' = { s with wsrcAnswers := rest }) ∨
        (s.wsrcAnswers = [] ∧ s' = { s with draws := s.draws + 1 } ∧
          a = if Config.wsrcFails s.draws h then .fail else .samples (Config.wsrcSamples s.draws h)) →
      (a = .fail → exec (.loadWave node h) s = .next { s' with err := s.err ||| 16 }) ∧
      (∀ r, a = .samples r →
        ∃ custom : List Word,
          exec (.loadWave node h) s =
            .next (Claims.putNode s' node.toNat
              { n with body := .osc { o with custom := custom, wave := .custom } }) ∧
          custom.length = 2 ^ s.cfg.tableBits ∧
          ∀ i, i < 2 ^ s.cfg.tableBits → custom[i]? = if i < r.length then r[i]? else o.custom[i]?)

/-- R485: a command whose node index names no node, or a node that is not of its kind, sets ERR bit 2 and changes
nothing else, whatever its ELEM (R534). R486: SET_PATTERN or SET_GATELEN of a SEQ node with ELEM above 15 sets ERR bit 3 and
changes nothing else. -/
def Obligations.CommandChecksSetOneBit : Prop :=
  ∀ (node elem : BitVec 8) (v : Word) (b : Bool) (h : BitVec 32) (s : State),
    ((∀ n, s.nodes[node.toNat]? = some n → nodeKind n ≠ .env) →
      ∀ i ∈ [Instr.setEnvAttackFor node v, .setEnvAttackTo node v, .setEnvDecayFor node v, .setEnvSustainAt node v,
        .setEnvReleaseFor node v], exec i s = .next { s with err := s.err ||| 4 }) ∧
    ((∀ n, s.nodes[node.toNat]? = some n → nodeKind n ≠ .seq) →
      ∀ i ∈ [Instr.setPattern node elem b, .setGatelen node elem v], exec i s = .next { s with err := s.err ||| 4 }) ∧
    ((∀ n, s.nodes[node.toNat]? = some n → nodeKind n ≠ .osc) →
      ∀ i ∈ [Instr.setOscFreq node v, .setOscScale node v, .loadWave node h],
        exec i s = .next { s with err := s.err ||| 4 }) ∧
    (∀ n, s.nodes[node.toNat]? = some n → nodeKind n = .seq → 15 < elem.toNat →
      exec (.setPattern node elem b) s = .next { s with err := s.err ||| 8 } ∧
      exec (.setGatelen node elem v) s = .next { s with err := s.err ||| 8 })

/-- R499: every command but LOAD_WAVE, applied twice, does what it does once, in every state. -/
def Obligations.CommandsButLoadAreIdempotent : Prop :=
  ∀ (w : CmdWord) (s : State), (w.extractLsb' 56 8).toNat ≠ 0x30 →
    applyWord w (applyWord w s) = applyWord w s

/-- R481, R134: ENG.DRAIN applies every queued word, the oldest first, leaves the queue empty, and then sets RUN to 0
where the channel is closed. It changes nothing but what commands change (nodes, ERR, WSRC's answers and draws). -/
def Obligations.DrainAppliesTheQueueInOrder : Prop :=
  (∀ s : State, ∃ ns e a d, exec .engDrain s = .next { s with
      nodes := ns
      err := e
      wsrcAnswers := a
      draws := d
      cmdq := []
      run := if s.closed then false else s.run }) ∧
  (∀ s : State, s.cmdq = [] → exec .engDrain s = .next { s with run := if s.closed then false else s.run }) ∧
  (∀ (s : State) (w : CmdWord) (ws : List CmdWord), s.cmdq = w :: ws →
    exec .engDrain s = exec .engDrain { applyWord w { s with cmdq := [] } with cmdq := ws })

/-- R184: the sixteen commands of SET_PATTERN_MASK, applied in order to a SEQ node, leave its PATTERN equal to the mask and
change nothing else. -/
def Obligations.PatternMaskWritesThePattern : Prop :=
  ∀ (node : BitVec 8) (m : Word) (s : State) (n : Node) (q : SeqSt),
    s.nodes[node.toNat]? = some n → n.body = .seq q →
    (expandPatternMask node m).foldl (fun t i => applyCmd i t) s =
      Claims.putNode s node.toNat { n with body := .seq { q with pattern := m } }

/-- R183, R184: every line of command syntax that assembles gives words which decode, in order, to the commands it stands
for; and those are, for a mnemonic, a node word for node k and operands spelled as numbers, the commands listed here: the
mnemonic's own command, or the expansion of the pseudo-instruction in its order. Durations, gate lengths and masks are 0
to 65535, a level or a note may be negative (a note is the model's choice, log 31), an element is 0 to 255, a bit 0 or 1, a
handle 32 bits. -/
def Obligations.AssembledWordsDecodeToTheLine : Prop :=
  (∀ (c : Config) (line : String) (is : List Instr), assembleLine c line = some is → Claims.Assembles c line is) ∧
  ∀ (c : Config) (nw : String) (k : BitVec 8) (w1 w2 w3 w4 w5 : String) (z1 z2 z3 z4 z5 : Int),
    Claims.NodeWord c nw k → Claims.Spells w1 z1 → Claims.Spells w2 z2 → Claims.Spells w3 z3 → Claims.Spells w4 z4 →
    Claims.Spells w5 z5 →
    let v := fun z : Int => BitVec.ofInt 16 z
    let unsigned := fun z : Int => 0 ≤ z ∧ z ≤ 65535
    let level := fun z : Int => -32768 ≤ z ∧ z ≤ 65535
    (unsigned z1 →
      ∀ p ∈ [("SET_ENV_ATTACK_FOR", [Instr.setEnvAttackFor k (v z1)]),
        ("SET_ENV_DECAY_FOR", [Instr.setEnvDecayFor k (v z1)]),
        ("SET_ENV_RELEASE_FOR", [Instr.setEnvReleaseFor k (v z1)]),
        ("SET_PATTERN_MASK", (List.range 16).map fun i => Instr.setPattern k (BitVec.ofNat 8 i) ((v z1).getLsbD i)),
        ("SET_GATELEN_ALL", (List.range 16).map fun i => Instr.setGatelen k (BitVec.ofNat 8 i) (v z1))],
        Claims.Assembles c (p.1 ++ " " ++ nw ++ ", " ++ w1) p.2) ∧
    (level z1 →
      ∀ p ∈ [("SET_ENV_ATTACK_TO", [Instr.setEnvAttackTo k (v z1)]),
        ("SET_ENV_SUSTAIN_AT", [Instr.setEnvSustainAt k (v z1)]),
        ("SET_OSC_FREQ", [Instr.setOscFreq k (v z1)]), ("SET_OSC_SCALE", [Instr.setOscScale k (v z1)])],
        Claims.Assembles c (p.1 ++ " " ++ nw ++ ", " ++ w1) p.2) ∧
    (0 ≤ z1 → z1 < 2 ^ 32 →
      Claims.Assembles c ("LOAD_WAVE " ++ nw ++ ", " ++ w1) [.loadWave k (BitVec.ofInt 32 z1)]) ∧
    (0 ≤ z1 → z1 ≤ 255 →
      (z2 = 0 ∨ z2 = 1 → Claims.Assembles c ("SET_PATTERN " ++ nw ++ ", " ++ w1 ++ ", " ++ w2)
        [.setPattern k (BitVec.ofInt 8 z1) (decide (z2 = 1))]) ∧
      (unsigned z2 → Claims.Assembles c ("SET_GATELEN " ++ nw ++ ", " ++ w1 ++ ", " ++ w2)
        [.setGatelen k (BitVec.ofInt 8 z1) (v z2)])) ∧
    (level z1 → level z2 → Claims.Assembles c ("SET_OSC " ++ nw ++ ", " ++ w1 ++ ", " ++ w2)
      [.setOscFreq k (v z1), .setOscScale k (v z2)]) ∧
    (unsigned z1 → level z2 → unsigned z3 → level z4 → unsigned z5 →
      Claims.Assembles c
        ("SET_ENV_ADSR " ++ nw ++ ", " ++ w1 ++ ", " ++ w2 ++ ", " ++ w3 ++ ", " ++ w4 ++ ", " ++ w5)
        [.setEnvAttackFor k (v z1), .setEnvAttackTo k (v z2), .setEnvDecayFor k (v z3), .setEnvSustainAt k (v z4),
          .setEnvReleaseFor k (v z5)])

/-! ### The numeric unit -/

/-- R221: FX.RAW returns k modulo 2^W in the format asked for, and changes nothing but the unit's result. -/
def Obligations.FxRawWrapsTheInteger : Prop :=
  ∀ (fa : Fmt) (s : State), ∃ raw : BitVec 64,
    exec (.fxRaw fa) s = .next { s with fxResult := .value (fmtWidth fa) (fmtFrac fa) raw } ∧
    (raw.toNat : Int) = s.opr.k % 2 ^ fmtWidth fa ∧
    (-(2 ^ (fmtWidth fa - 1)) ≤ s.opr.k → s.opr.k < 2 ^ (fmtWidth fa - 1) →
      Claims.sres (fmtWidth fa) raw = s.opr.k)

/-- R223, R224: FX.MUL returns the exact product in format (Wa+Wb, Fa+Fb). -/
def Obligations.FxMulIsExact : Prop :=
  ∀ (fa fb : Fmt) (s : State), ∃ raw : BitVec 64,
    exec (.fxMul fa fb) s =
      .next { s with fxResult := .value (fmtWidth fa + fmtWidth fb) (fmtFrac fa + fmtFrac fb) raw } ∧
    raw.toNat < 2 ^ (fmtWidth fa + fmtWidth fb) ∧
    Claims.sres (fmtWidth fa + fmtWidth fb) raw =
      (s.opr.a.setWidth (fmtWidth fa)).toInt * (s.opr.b.setWidth (fmtWidth fb)).toInt

/-- R226, R227: of a Q8.8 operand a, FX.CONV.Q8_8.Q8_0 returns a[15:8] and FX.CONV.Q8_8.Q1_7 returns a[7:0]. -/
def Obligations.FxConvOfQ88KeepsOneByte : Prop :=
  ∀ s : State,
    exec .fxConvQ88Q80 s = .next { s with fxResult := .value 8 0 ((s.opr.a.extractLsb' 8 8).setWidth 64) } ∧
    exec .fxConvQ88Q17 s = .next { s with fxResult := .value 8 7 ((s.opr.a.extractLsb' 0 8).setWidth 64) }

/-- R228: FX.CONV of an admitted pair shifts the operand left or right by the difference of the fraction bits, rounding
toward minus infinity, and wraps to the destination's width. -/
def Obligations.FxConvAlignsThePoint : Prop :=
  ∀ (fa fb : Fmt) (s : State), (Instr.fxConv fa fb).wf = true → ∃ raw : BitVec 64,
    exec (.fxConv fa fb) s = .next { s with fxResult := .value (fmtWidth fb) (fmtFrac fb) raw } ∧
    (fmtFrac fa ≤ fmtFrac fb →
      (raw.toNat : Int) =
        ((s.opr.a.setWidth (fmtWidth fa)).toInt * 2 ^ (fmtFrac fb - fmtFrac fa)) % 2 ^ fmtWidth fb) ∧
    (fmtFrac fb < fmtFrac fa →
      (raw.toNat : Int) =
        ((s.opr.a.setWidth (fmtWidth fa)).toInt / 2 ^ (fmtFrac fa - fmtFrac fb)) % 2 ^ fmtWidth fb)

/-- R230: FX.SADD of two operands of one format returns their sum clamped to the format's range. -/
def Obligations.FxSaddSaturates : Prop :=
  ∀ (f : Fmt) (s : State), ∃ raw : BitVec 64,
    exec (.fxSadd f f) s = .next { s with fxResult := .value (fmtWidth f) (fmtFrac f) raw } ∧
    raw.toNat < 2 ^ fmtWidth f ∧
    Claims.sres (fmtWidth f) raw =
      Claims.clampTo (fmtWidth f)
        ((s.opr.a.setWidth (fmtWidth f)).toInt + (s.opr.b.setWidth (fmtWidth f)).toInt)

/-- R234, R536: FX.RECIP of 0 returns the fault RECIP_DIV_ZERO and no value, sets ERR bit 5, and changes nothing else.
R232: of a nonzero integer operand n of width w, FX.RECIP returns in Q1.(w−1) the quotient floor(2^(w−1) / |n|),
limited to 2^(w−1) − 1, with the sign of n. -/
def Obligations.FxRecipIsTheFlooredReciprocal : Prop :=
  ∀ (f : Fmt) (s : State) (n : Int), f ∈ [Fmt.q8_0, .q16_0, .q32_0] → n = (s.opr.a.setWidth (fmtWidth f)).toInt →
    (n = 0 → exec (.fxRecip f) s = .next { s with fxResult := .fault .recipDivZero, err := s.err ||| 32 }) ∧
    (n ≠ 0 → ∃ raw : BitVec 64,
      exec (.fxRecip f) s = .next { s with fxResult := .value (fmtWidth f) (fmtWidth f - 1) raw } ∧
      raw.toNat < 2 ^ fmtWidth f ∧
      Claims.sres (fmtWidth f) raw =
        (if n < 0 then -1 else 1) * ((min (2 ^ (fmtWidth f - 1) / n.natAbs) (2 ^ (fmtWidth f - 1) - 1) : Nat) : Int))

/-! ### ENV -/

/-- R294, R291, R292: in Off, ENV.STEP outputs 0, clears the counter, and goes to Attack exactly when the trigger fires. -/
def Obligations.EnvStepInOff : Prop :=
  ∀ (s : State) (n : Node) (e : EnvSt), Claims.OnEnv s n e → e.state = .off →
    exec .envStep s = .next (Claims.withEnv s n 0
      (Claims.fields n e (if Claims.fires (n.ins.getD 5 0).toInt e.trigArmed then .attack else .off) 0
        (Claims.gateNow n e)))

/-- R293, R303: with ENV_RETRIG = HOLD, a trigger outside Off leaves state, counter and output, and only the detector
flags are updated. -/
def Obligations.EnvTriggerOutsideOffHolds : Prop :=
  ∀ (s : State) (n : Node) (e : EnvSt), Claims.OnEnv s n e → e.state ≠ .off → s.cfg.retrig = .hold →
    Claims.Triggered n e →
    exec .envStep s = .next (Claims.putNode s s.opr.node
      { n with body := .env (Claims.fields n e e.state e.counter (Claims.gateNow n e)) })

/-- R298: in Attack, Decay or Sustain with the gate not open, and no trigger or ENV_RETRIG = IGNORE, ENV.STEP goes to
Release with counter 0 and keeps the output. -/
def Obligations.EnvGateLossReleases : Prop :=
  ∀ (s : State) (n : Node) (e : EnvSt), Claims.OnEnv s n e → e.state ∈ [EnvState.attack, .decay, .sustain] →
    (¬ Claims.Triggered n e ∨ s.cfg.retrig = .ignore) → Claims.gateNow n e = false →
    exec .envStep s = .next (Claims.putNode s s.opr.node
      { n with body := .env (Claims.fields n e .release 0 false) })

/-- R295: in Attack with the gate open, c = counter + 1; when c reaches attack_for the output is
attack_to and the state Decay with counter 0; else the output is ENV_RAMP_DIV(attack_to · c, attack_for) and the counter c. -/
def Obligations.EnvStepInAttack : Prop :=
  ∀ (s : State) (n : Node) (e : EnvSt), Claims.OnEnv s n e → e.state = .attack →
    (¬ Claims.Triggered n e ∨ s.cfg.retrig = .ignore) → Claims.gateNow n e = true →
    let c := e.counter.toNat + 1
    let T := (n.ins.getD 1 0).toInt
    let A := (n.ins.getD 0 0).toNat
    (A ≤ c → exec .envStep s = .next (Claims.withEnv s n (n.ins.getD 1 0) (Claims.fields n e .decay 0 true))) ∧
    (c < A → exec .envStep s = .next (Claims.withEnv s n (BitVec.ofInt 16 (Claims.ramp s.cfg (T * c) A))
      (Claims.fields n e .attack (BitVec.ofNat 16 c) true)))

/-- R296: in Decay with the gate open, c = counter + 1; when c reaches decay_for the output is
sustain_at and the state Sustain with counter 0; else the output is T − ENV_RAMP_DIV((T − S) · c, D) and the counter c. -/
def Obligations.EnvStepInDecay : Prop :=
  ∀ (s : State) (n : Node) (e : EnvSt), Claims.OnEnv s n e → e.state = .decay →
    (¬ Claims.Triggered n e ∨ s.cfg.retrig = .ignore) → Claims.gateNow n e = true →
    let c := e.counter.toNat + 1
    let T := (n.ins.getD 1 0).toInt
    let D := (n.ins.getD 2 0).toNat
    let S := (n.ins.getD 3 0).toInt
    (D ≤ c → exec .envStep s = .next (Claims.withEnv s n (n.ins.getD 3 0) (Claims.fields n e .sustain 0 true))) ∧
    (c < D → exec .envStep s = .next (Claims.withEnv s n (BitVec.ofInt 16 (T - Claims.ramp s.cfg ((T - S) * c) D))
      (Claims.fields n e .decay (BitVec.ofNat 16 c) true)))

/-- R297: in Sustain with the gate open, the output is sustain_at, and state and counter stay. -/
def Obligations.EnvStepInSustain : Prop :=
  ∀ (s : State) (n : Node) (e : EnvSt), Claims.OnEnv s n e → e.state = .sustain →
    (¬ Claims.Triggered n e ∨ s.cfg.retrig = .ignore) → Claims.gateNow n e = true →
    exec .envStep s = .next (Claims.withEnv s n (n.ins.getD 3 0) (Claims.fields n e .sustain e.counter true))

/-- R299: in Release the gate is forced closed, c = counter + 1; when c reaches release_for the
output is 0 and the state Off with counter 0; else the output is S − ENV_RAMP_DIV(S · c, R) and the counter c. -/
def Obligations.EnvStepInRelease : Prop :=
  ∀ (s : State) (n : Node) (e : EnvSt), Claims.OnEnv s n e → e.state = .release →
    (¬ Claims.Triggered n e ∨ s.cfg.retrig = .ignore) →
    let c := e.counter.toNat + 1
    let S := (n.ins.getD 3 0).toInt
    let R := (n.ins.getD 4 0).toNat
    (R ≤ c → exec .envStep s = .next (Claims.withEnv s n 0 (Claims.fields n e .off 0 false))) ∧
    (c < R → exec .envStep s = .next (Claims.withEnv s n (BitVec.ofInt 16 (S - Claims.ramp s.cfg (S * c) R))
      (Claims.fields n e .release (BitVec.ofNat 16 c) false)))

/-- R301, R295: with the gate held above T_HIGH and no trigger, a node that has just entered Attack outputs
tdiv(T · j, A) after its j-th further step for j below A, and attack_to, in Decay with counter 0, after the A-th. -/
def Obligations.EnvAttackRampIsLinear : Prop :=
  ∀ (c : Config) (n : Node) (e : EnvSt), c.rampDiv = .tdiv → n.body = .env e → n.outs.length = 1 →
    e.state = .attack → e.counter = 0 → 24576 < (n.ins.getD 6 0).toInt → (n.ins.getD 5 0).toInt ≤ 24576 →
    let T := (n.ins.getD 1 0).toInt
    let A := (n.ins.getD 0 0).toNat
    1 ≤ A →
    (∀ j, 1 ≤ j → j < A → ∃ m e', Claims.iter (asEnvStep c) j n = some m ∧ m.body = .env e' ∧
      m.outs = [BitVec.ofInt 16 ((T * j).tdiv A)] ∧ e'.state = .attack ∧ e'.counter.toNat = j ∧ m.ins = n.ins) ∧
    (∃ m e', Claims.iter (asEnvStep c) A n = some m ∧ m.body = .env e' ∧
      m.outs = [n.ins.getD 1 0] ∧ e'.state = .decay ∧ e'.counter = 0 ∧ m.ins = n.ins)

/-- R264: the TICK of ENV, OSC, VCA, MIX and REV, codes 0x11, 0x21, 0x41, 0x51 and 0x61, reads and writes nothing. -/
def Obligations.TickOfOtherKindsDoesNothing : Prop :=
  ∀ s : State,
    ∀ p ∈ [((0x11 : BitVec 8), Instr.envTick), (0x21, .oscTick), (0x41, .vcaTick), (0x51, .mixTick), (0x61, .revTick)],
      decode (.disp p.1) = .ok p.2 ∧ exec p.2 s = .next s

/-! ### OSC -/

/-- R330 to R336: OSC.STEP adds the note's increment and the modulation offset to the phase, modulo 2^W_PHASE, then
outputs the entry of the selected table at the new phase's top bits; nothing else changes. -/
def Obligations.OscStepAdvancesThenReads : Prop :=
  ∀ (s : State) (n : Node) (o : OscSt) (inc : Nat), s.nodes[s.opr.node]? = some n → n.body = .osc o →
    s.cfg.roms.inc[(max 0 (min 127 (n.ins.getD 0 0).toInt)).toNat]? = some inc →
    ∃ phase : Nat,
      (phase : Int) =
        (o.phase + inc + (Claims.mul15 (n.ins.getD 1 0) (n.ins.getD 2 0) * inc) / 32768) % 2 ^ s.cfg.wPhase ∧
      exec .oscStep s = .next (Claims.putNode s s.opr.node
        { n with
          outs := n.outs.set 0 ((match o.wave with
            | .sine => s.cfg.roms.sine
            | .saw => s.cfg.roms.saw
            | .triangle => s.cfg.roms.tri
            | .square => s.cfg.roms.square
            | .whiteNoise => s.cfg.roms.noise
            | .custom => o.custom).getD (phase / 2 ^ (s.cfg.wPhase - s.cfg.tableBits)) 0)
          body := .osc { o with phase := phase } })

/-- R336: the modulation offset lies within the increment either way, so the phase advances by 0 to 2·inc. -/
def Obligations.OscOffsetStaysWithinTheIncrement : Prop :=
  ∀ (c : Config) (n : Node),
    -(noteInc c n : Int) ≤ modOffset c n ∧ modOffset c n ≤ noteInc c n ∧
    -32767 ≤ modFactor n ∧ modFactor n ≤ 32768

/-- R342: with the modulation depth 0, the phase after j steps is (p0 + j · inc) modulo 2^W_PHASE. -/
def Obligations.OscPhaseAfterManySteps : Prop :=
  ∀ (c : Config) (n : Node) (o : OscSt) (j : Nat), n.body = .osc o → n.ins.getD 2 0 = 0 → o.phase < 2 ^ c.wPhase →
    ∃ m o', Claims.iter (asOscStep c) j n = some m ∧ m.body = .osc o' ∧ m.ins = n.ins ∧
      o'.phase = (o.phase + j * noteInc c n) % 2 ^ c.wPhase ∧ o'.wave = o.wave ∧ o'.custom = o.custom

/-! ### SEQ -/

/-- R371, R373: SEQ.TICK advances the beat modulo 16; on an active step both outputs are 0x7FFF and elapsed is 0, on an
inactive one both are 0 and elapsed stays; nothing else changes. -/
def Obligations.SeqTickAdvancesTheBeat : Prop :=
  ∀ (s : State) (n : Node) (q : SeqSt), s.nodes[s.opr.node]? = some n → n.body = .seq q →
    ∃ b : BitVec 4, b.toNat = (q.beat.toNat + 1) % 16 ∧
      (q.pattern.getLsbD b.toNat = true →
        exec .seqTick s = .next (Claims.putNode s s.opr.node
          { n with
            outs := (n.outs.set 0 0x7FFF).set 1 0x7FFF
            body := .seq { q with beat := b, gateR := true, trigR := true, elapsed := 0 } })) ∧
      (q.pattern.getLsbD b.toNat = false →
        exec .seqTick s = .next (Claims.putNode s s.opr.node
          { n with
            outs := (n.outs.set 0 0).set 1 0
            body := .seq { q with beat := b, gateR := false, trigR := false } }))

/-- R372, R373: SEQ.STEP clears the trigger; on an active step it counts elapsed modulo 2^16 and closes the gate when the
count is 0 or exceeds the step's gate length; on an inactive one only the trigger changes. -/
def Obligations.SeqStepTimesTheGate : Prop :=
  ∀ (s : State) (n : Node) (q : SeqSt), s.nodes[s.opr.node]? = some n → n.body = .seq q →
    ∃ (el : BitVec 16) (g : Bool),
      exec .seqStep s = .next (Claims.putNode s s.opr.node
        { n with
          outs := (n.outs.set 0 (if g then 0x7FFF else 0)).set 1 0
          body := .seq { q with trigR := false, elapsed := el, gateR := g } }) ∧
      (q.pattern.getLsbD q.beat.toNat = true →
        el.toNat = (q.elapsed.toNat + 1) % 65536 ∧
        g = (if el.toNat = 0 ∨ (q.gatelen.getD q.beat.toNat 0).toNat < el.toNat then false else q.gateR)) ∧
      (q.pattern.getLsbD q.beat.toNat = false → el = q.elapsed ∧ g = q.gateR)

/-- R375: after a tick that opened an active step of gate length G, the m-th STEP (m below 65536) leaves elapsed = m and
the gate open exactly when m ≤ G. -/
def Obligations.SeqGateIsHeldForItsLength : Prop :=
  ∀ (n : Node) (q : SeqSt) (m : Nat), n.body = .seq q → n.outs.length = 2 →
    q.pattern.getLsbD q.beat.toNat = true → q.elapsed = 0 → q.gateR = true → 1 ≤ m → m < 65536 →
    ∃ n' q', Claims.iter asSeqStep m n = some n' ∧ n'.body = .seq q' ∧ q'.elapsed.toNat = m ∧
      q'.gateR = decide (m ≤ (q.gatelen.getD q.beat.toNat 0).toNat) ∧
      n'.outs = [if m ≤ (q.gatelen.getD q.beat.toNat 0).toNat then 0x7FFF else 0, 0]

/-! ### VCA, MIX, REV -/

/-- R400: VCA.STEP outputs floor(amp_cv · in_cv / 2^15), wrapped or saturated to 16 bits as VCA_NARROW says. -/
def Obligations.VcaStepMultiplies : Prop :=
  ∀ (s : State) (n : Node), s.nodes[s.opr.node]? = some n → n.body = .vca →
    let p := Claims.mul15 (n.ins.getD 0 0) (n.ins.getD 1 0)
    (s.cfg.narrow = .wrap → exec .vcaStep s =
      .next (Claims.putNode s s.opr.node { n with outs := n.outs.set 0 (BitVec.ofInt 16 p) })) ∧
    (s.cfg.narrow = .sat → exec .vcaStep s =
      .next (Claims.putNode s s.opr.node
        { n with outs := n.outs.set 0 (BitVec.ofInt 16 (max (-32768) (min 32767 p))) }))

/-- R401: VCA.STEP is commutative in its inputs; with one of them 0 the output is 0; with amp_cv not negative the output
never exceeds in_cv in magnitude; and only amp_cv = in_cv = 0x8000, a negative amp_cv, tells WRAP from SAT. -/
def Obligations.VcaNeverAmplifies : Prop :=
  ∀ (c : Config) (n : Node) (a b : Word),
    let out := fun (d : Config) (x y : Word) => outp (vcaStepNode d { n with ins := [x, y], outs := [0] }) 0
    out c a b = out c b a ∧ out c a 0 = 0 ∧ out c 0 b = 0 ∧
    (0 ≤ a.toInt → |(out c a b).toInt| ≤ |b.toInt|) ∧
    (out { c with narrow := .wrap } a b ≠ out { c with narrow := .sat } a b ↔ a = 0x8000 ∧ b = 0x8000) ∧
    (0x8000 : Word).toInt < 0

/-- R402, R403: MIX.STEP outputs the exact sum of the two weighted inputs, clamped once. -/
def Obligations.MixStepSaturatesTheSum : Prop :=
  ∀ (s : State) (n : Node), s.nodes[s.opr.node]? = some n → n.body = .mix →
    let p1 := Claims.mul15 (n.ins.getD 0 0) (n.ins.getD 1 0)
    let p2 := Claims.mul15 (n.ins.getD 2 0) (n.ins.getD 3 0)
    exec .mixStep s = .next (Claims.putNode s s.opr.node
      { n with
        outs := n.outs.set 0
          (if 32767 < p1 + p2 then 0x7FFF else if p1 + p2 < -32768 then 0x8000 else BitVec.ofInt 16 (p1 + p2)) })

/-- R404: REV.STEP on a node whose taps match its configured taps: the output is the clamped exact sum of every tap's dry
and wet terms, and every tap stores its clamped input plus feedback at its position and moves on modulo its length. -/
def Obligations.RevStepRunsEveryTap : Prop :=
  ∀ (s : State) (n : Node) (nc : NodeCfg) (tcs : List TapCfg) (ts : List TapSt),
    s.nodes[s.opr.node]? = some n → n.body = .rev ts → s.cfg.nodes[s.opr.node]? = some nc → nc.kcfg = .rev tcs →
    tcs.length = ts.length →
    let x := (n.ins.getD 0 0).toInt
    let d := fun t : TapSt => (t.buf.getD t.pos 0).toInt
    let term := fun (tc : TapCfg) (t : TapSt) =>
      x * (32768 - tc.gain.toInt) / 32768 +
        d t * (32768 - tc.gain.toInt * tc.gain.toInt / 32768) / 32768
    let next := fun (tc : TapCfg) (t : TapSt) =>
      ({ buf := t.buf.set t.pos
           (BitVec.ofInt 16 (max (-32768) (min 32767 (x + tc.gain.toInt * d t / 32768))))
         pos := (t.pos + 1) % tc.len } : TapSt)
    exec .revStep s = .next (Claims.putNode s s.opr.node
      { n with
        outs := n.outs.set 0 (BitVec.ofInt 16 (max (-32768) (min 32767 (List.zipWith term tcs ts).sum)))
        body := .rev (List.zipWith next tcs ts) })

/-- R404: a tap of length L reads, L steps after it stored a value, that value, whatever it was fed in between. -/
def Obligations.RevTapDelaysByItsLength : Prop :=
  ∀ (tc : TapCfg) (t : TapSt) (x : Int) (xs : List Int), tapWf tc t → xs.length + 1 = tc.len →
    tapDelayed (xs.foldl (fun u y => tapNext y tc u) (tapNext x tc t)) =
      (sat16 (x + tc.gain.toInt * tapDelayed t / 32768)).toInt

/-! ### The engine -/

/-- R440: ENG.VALIDATE answers the resolved graph or is refused with a reason; a configuration is accepted exactly when
it has at most 256 nodes, no two of one name, every wire and the output naming registered nodes, a tick period that is
not 0, taps of legal lengths and legal waveforms; the reason is the first failing check in R440's order; and the graph is
the one R441 resolves. -/
def Obligations.ValidateChecksInOrder : Prop :=
  (∀ s : State, (∀ g, validate s.cfg = .ok g → exec .engValidate s = .next { s with graph := g }) ∧
    (∀ r, validate s.cfg = .error r → exec .engValidate s = .refused (.rejected r))) ∧
  (∀ c : Config,
    let named := fun x : String => ∃ nc ∈ c.nodes, nc.name = x
    let wiresOk := ∀ w ∈ c.wires, named w.src.node ∧ named w.dst.node
    let tapsOk := ∀ nc ∈ c.nodes, ∀ tcs, nc.kcfg = .rev tcs → tcs ≠ [] ∧ ∀ tc ∈ tcs, 1 ≤ tc.len ∧ tc.len ≤ 65535
    let kcfgOk := ∀ nc ∈ c.nodes, ∀ x, nc.kcfg ≠ .osc (.unknown x)
    (256 < c.nodes.length → validate c = .error .tooManyNodes) ∧
    (c.nodes.length ≤ 256 →
      (¬ (c.nodes.map (·.name)).Nodup → validate c = .error .duplicateName) ∧
      ((c.nodes.map (·.name)).Nodup →
        (∀ (pre post : List WireCfg) (w : WireCfg), c.wires = pre ++ w :: post →
          (∀ v ∈ pre, named v.src.node ∧ named v.dst.node) →
          (¬ named w.src.node → validate c = .error .unresolvedWireSource) ∧
          (named w.src.node → ¬ named w.dst.node → validate c = .error .unresolvedWireDest)) ∧
        (wiresOk → ¬ named c.output.node → validate c = .error .unresolvedOutput) ∧
        (wiresOk → named c.output.node → c.tickPeriod = 0 → validate c = .error .badTickPeriod) ∧
        (wiresOk → named c.output.node → c.tickPeriod ≠ 0 → ¬ tapsOk → validate c = .error .badTaps) ∧
        (wiresOk → named c.output.node → c.tickPeriod ≠ 0 → tapsOk → ¬ kcfgOk → validate c = .error .badKcfg) ∧
        (wiresOk → named c.output.node → c.tickPeriod ≠ 0 → tapsOk → kcfgOk →
          ∃ g, validate c = .ok g ∧ Claims.Resolves c g))))

/-- R453, R454: ENG.PROPAGATE leaves in every input latch the source port's value of the last wire to it, read as the
output registers stood, and leaves a latch no wire targets; no output register and no private field changes. -/
def Obligations.LastWireToALatchWins : Prop :=
  ∀ s : State, ∃ ns : List Node, exec .engPropagate s = .next { s with nodes := ns } ∧
    ns.length = s.nodes.length ∧
    ∀ (d : Nat) (n m : Node), s.nodes[d]? = some n → ns[d]? = some m →
      m.outs = n.outs ∧ m.body = n.body ∧ m.ins.length = n.ins.length ∧
      ∀ p, p < n.ins.length →
        m.ins[p]? = match (s.graph.wires.filter fun w => w.dst == d && w.dstPort == some p).getLast? with
          | none => n.ins[p]?
          | some w => some (match s.nodes[w.src]? with
            | none => 0
            | some src => match w.srcPort with
              | none => 0
              | some k => src.outs.getD k 0)

/-- R455: ENG.EMIT puts the OUTPUT node's register, or 0 for the null port, in SAMPLE_OUT and at the end of OUT_STREAM,
and the first SEQ node's beat, or 0, in BEAT_INDEX; nothing else changes. -/
def Obligations.EmitAppendsOneSample : Prop :=
  ∀ (s : State) (n : Node) (v : Word), s.nodes[s.graph.outNode]? = some n →
    v = (match s.graph.outPort with
      | none => 0
      | some p => n.outs.getD p 0) →
    exec .engEmit s = .next { s with
      sampleOut := v.setWidth 32
      outStream := s.outStream ++ [v]
      beatIndex := ((s.nodes.findSome? fun m : Node =>
        match m.body with
        | .seq q => some q.beat
        | _ => none).getD 0).setWidth 32 }

/-- R181, R450 (b), (c): the engine's STEP or TICK of a node is what the instruction of that kind does on it, and it
changes no other node and nothing else. An operation issued on a node of another kind, or on none, is refused (the model's
choice, log 14: the engine never issues one). -/
def Obligations.EngineStepsEachNodeByItsInstruction : Prop :=
  (∀ s : State,
    ∀ p ∈ [(Kind.env, Instr.envStep), (.osc, .oscStep), (.seq, .seqStep), (.seq, .seqTick), (.vca, .vcaStep),
      (.mix, .mixStep), (.rev, .revStep)],
      (∀ n, s.nodes[s.opr.node]? = some n → nodeKind n ≠ p.1) → exec p.2 s = .refused .wrongKind) ∧
  ∀ (s : State) (n : Node), s.nodes[s.opr.node]? = some n →
    exec (match nodeKind n with
      | .env => .envStep
      | .osc => .oscStep
      | .seq => .seqStep
      | .vca => .vcaStep
      | .mix => .mixStep
      | .rev => .revStep) s = .next (Claims.putNode s s.opr.node (stepNode s.cfg s.opr.node n)) ∧
    exec (match nodeKind n with
      | .env => .envTick
      | .osc => .oscTick
      | .seq => .seqTick
      | .vca => .vcaTick
      | .mix => .mixTick
      | .rev => .revTick) s = .next (Claims.putNode s s.opr.node (tickNode n))

/-- R450, R452, R456: in a running block with an open channel ENG.ITERATE is: the drain; one STEP of every node; one TICK
of every node where TICK_CTR is 0, which then becomes TICK_PERIOD − 1, while otherwise it counts down by 1; the
propagation; the emission; EXEC_UPDATE, which writes EXEC_TIME (some value x) and clears BUF_CTR where BUF_CTR + 1 =
BUFFER_LEN and otherwise counts BUF_CTR up and leaves EXEC_TIME; and SAMPLE_INDEX + 1. -/
def Obligations.IterationRunsItsPhasesInOrder : Prop :=
  ∀ s : State, s.run = true → s.closed = false →
    ∃ (d : State) (ns : List Node) (p e : State) (x : HostWord),
      exec .engDrain s = .next d ∧
      ns.length = d.nodes.length ∧
      (∀ i, ns[i]? = (d.nodes[i]?).map fun n =>
        if s.tickCtr = 0 then tickNode (stepNode s.cfg i n) else stepNode s.cfg i n) ∧
      exec .engPropagate { d with
        nodes := ns
        tickCtr := if s.tickCtr = 0 then s.cfg.tickPeriod - 1 else s.tickCtr - 1 } = .next p ∧
      exec .engEmit p = .next e ∧
      exec .engIterate s = .next { e with
        sampleIndex := s.sampleIndex + 1
        bufCtr := if s.bufCtr.toNat + 1 = s.cfg.bufferLen then 0 else s.bufCtr + 1
        execTime := if s.bufCtr.toNat + 1 = s.cfg.bufferLen then x else s.execTime
        draws := if s.bufCtr.toNat + 1 = s.cfg.bufferLen then d.draws + 1 else d.draws }

/-- R450, R482: an iteration of a running block whose channel is closed drains the queue, sets RUN to 0, and leaves
OUT_STREAM, SAMPLE_OUT, BEAT_INDEX, EXEC_TIME, SAMPLE_INDEX, TICK_CTR and BUF_CTR; one of a running block whose channel is
open drains the queue, appends exactly one sample, which SAMPLE_OUT then holds, counts one iteration, and goes on
running; in HALTED it changes nothing. -/
def Obligations.IterationEmitsOneSampleOrHalts : Prop :=
  ∀ s : State,
    (s.run = true → s.closed = true → ∃ t, exec .engIterate s = .next t ∧ t.run = false ∧ t.cmdq = [] ∧
      t.closed = true ∧ t.outStream = s.outStream ∧ t.sampleOut = s.sampleOut ∧ t.beatIndex = s.beatIndex ∧
      t.execTime = s.execTime ∧ t.sampleIndex = s.sampleIndex ∧ t.tickCtr = s.tickCtr ∧ t.bufCtr = s.bufCtr ∧
      exec .engDrain s = .next t) ∧
    (s.run = true → s.closed = false → ∃ t v, exec .engIterate s = .next t ∧ t.run = true ∧ t.cmdq = [] ∧
      t.closed = false ∧ t.outStream = s.outStream ++ [v] ∧ t.sampleOut = v.setWidth 32 ∧
      t.sampleIndex = s.sampleIndex + 1 ∧ t.cfg = s.cfg ∧ t.graph = s.graph ∧ t.nodes.length = s.nodes.length) ∧
    (s.run = false → exec .engIterate s = .next s)

/-- R452: a running block with an open channel and TICK_CTR = 0 runs k iterations for every k, and the iteration after them
(number k, counted from 0) ticks exactly when k is a multiple of TICK_PERIOD: TICK_FIRES answers true, and every node is
left with the outputs and the private fields of a STEP and a TICK after the drain; in any other iteration of a STEP alone. -/
def Obligations.TickFiresEveryPeriod : Prop :=
  ∀ (s : State) (k : Nat), s.run = true → s.closed = false → s.tickCtr = 0 → s.cfg.tickPeriod ≠ 0 →
    ∃ t d u : State, Claims.iterations k s = some t ∧ exec .engDrain t = .next d ∧ exec .engIterate t = .next u ∧
      t.run = true ∧ t.closed = false ∧ t.cfg = s.cfg ∧ t.sampleIndex = s.sampleIndex + BitVec.ofNat 64 k ∧
      tickFires t = decide (k % s.cfg.tickPeriod.toNat = 0) ∧ u.nodes.length = d.nodes.length ∧
      ∀ (i : Nat) (n m : Node), d.nodes[i]? = some n → u.nodes[i]? = some m →
        let stepped := stepNode s.cfg i n
        let done := if k % s.cfg.tickPeriod.toNat = 0 then tickNode stepped else stepped
        m.outs = done.outs ∧ m.body = done.body

/-- R266, R451: the results of phases (b) and (c) do not depend on the order in which the nodes are visited. -/
def Obligations.NodeOrderDoesNotMatter : Prop :=
  ∀ (c : Config) (ns : List Node) (order : List Nat), order.Perm (List.range ns.length) →
    stepNodes c order ns = stepNodes c (List.range ns.length) ns ∧
    tickNodes order ns = tickNodes (List.range ns.length) ns

/-- R47, R460: EXEC_TIME is read by no rule of the iteration: an iteration from two states that differ in it alone gives two states that
differ in it alone. -/
def Obligations.ExecTimeReachesNothing : Prop :=
  ∀ (s : State) (x : HostWord), ∃ y, iterate { s with execTime := x } = { iterate s with execTime := y }

/-- R40, R44, R48, R458, R482: no step of any agent changes the configuration, takes a sample back, clears an ERR bit,
reopens the channel or returns RUN to 1. -/
def Obligations.SessionNeverGoesBack : Prop :=
  ∀ s t : State, step s = .next t →
    t.cfg = s.cfg ∧ (∃ l, t.outStream = s.outStream ++ l) ∧ t.err &&& s.err = s.err ∧ (s.run = false → t.run = false) ∧
    (s.closed = true → t.closed = true)

/-- R458, R482, R558: in HALTED no agent's step changes a node, a sample, a counter or a host register, whatever is
scheduled (an operation issued alone is ignored then: the model's choice, log 16). STATUS too keeps its value in a state of
the invariant, where a halted block has a closed channel and an empty queue: without that a push or a close would change
its bits 1 and 2. -/
def Obligations.HaltedKeepsEveryRegister : Prop :=
  ∀ s t : State, s.run = false → step s = .next t →
    t.run = false ∧ t.nodes = s.nodes ∧ t.outStream = s.outStream ∧ t.sampleOut = s.sampleOut ∧
    t.beatIndex = s.beatIndex ∧ t.execTime = s.execTime ∧ t.err = s.err ∧ t.tickCtr = s.tickCtr ∧
    t.bufCtr = s.bufCtr ∧ t.sampleIndex = s.sampleIndex ∧
    (Inv s → t.closed = true ∧ t.cmdq = [] ∧ statusWord t = statusWord s ∧ ∀ r, hostReg t r = hostReg s r)

/-! ### HOST and SINK -/

/-- R122, R129, R130, R45 to R49: an aligned 32-bit read at the offset of a register, with the youngest value taken,
returns the register's present value in a state of the invariant, and changes nothing but the word returned and that
register's window. STATUS reads RUN in bit 0, CLOSED in bit 1, and 1 in bit 2 when CMDQ is empty. -/
def Obligations.HostReadReturnsTheRegister : Prop :=
  ∀ (s : State) (off : Nat) (r : HostReg) (v : HostWord), Inv s →
    (off, r, v) ∈ [(0x00, HostReg.sampleOut, s.sampleOut), (0x04, .beatIndex, s.beatIndex),
      (0x08, .execTime, s.execTime), (0x0C, .err, s.err),
      (0x10, .status, (if s.run then 1 else 0) + (if s.closed then 2 else 0) + (if s.cmdq = [] then 4 else 0))] →
    runEvent (.access { write := false, width := 32, addr := s.cfg.hostBase + off, data := 0, age := 0 }) s =
      .next { s with
        busData := v.setWidth 64
        seen := setWindow s.seen r [v] }

/-- R135, over the model's windows (log 9). Every step of every agent leaves of a register's window its younger part, with
the register's value after the step entered at the young end where it differs from the youngest; it drops older values only
when it is a HOST read of that register, and never all of them. A HOST read of a register returns the value `age` entries
before the youngest, or the oldest one there is, which is then the oldest a later read may return; and it changes nothing
but the word returned, the windows and the agenda. So no later read returns an older value. -/
def Obligations.HostReadsNeverGoBack : Prop :=
  (∀ (s t : State) (r : HostReg), step s = .next t →
    ∃ k, (k = 0 ∨ ∃ a rest, s.agenda = .access a :: rest ∧ Claims.Reads s a r) ∧
      (window s.seen r ≠ [] → k < (window s.seen r).length) ∧
      window t.seen r = Claims.seenAfter ((window s.seen r).drop k) (hostReg t r)) ∧
  ∀ (s : State) (a : Access) (rest : List Event) (r : HostReg) (older newer : List HostWord) (v : HostWord),
    s.agenda = .access a :: rest → Claims.Reads s a r → window s.seen r = older ++ v :: newer →
    newer.length = min a.age (older.length + newer.length) →
    ∃ t, step s = .next t ∧ t.busData = v.setWidth 64 ∧
      window t.seen r = Claims.seenAfter (v :: newer) (hostReg s r) ∧
      { t with seen := s.seen, busData := s.busData, agenda := s.agenda } = s

/-- R480, R482, R121: a 64-bit write at 0x20 appends the word to CMDQ while the channel is open and is refused after the
close; the close sets CLOSED, once and for good. -/
def Obligations.PushAppendsUntilTheClose : Prop :=
  ∀ (s : State) (w : CmdWord) (age : Nat),
    let push := Event.access { write := true, width := 64, addr := s.cfg.hostBase + 0x20, data := w, age := age }
    (s.closed = false → runEvent push s = .next { s with cmdq := s.cmdq ++ [w] }) ∧
    (s.closed = true → runEvent push s = .refused .pushClosed) ∧
    runEvent .close s = .next { s with closed := true }

/-- R122: every access R122 does not list is refused: below HOST_BASE, of another width than 32 or 64 bits, misaligned,
64 bits wide elsewhere than 0x20, 32 bits wide at 0x20 or 0x24, or beyond the window. The writes it lists without an
effect, and the reads it lists that return 0, have no other effect. -/
def Obligations.HostWindowIsDecodedAsListed : Prop :=
  (∀ (s : State) (a : Access), a.addr < s.cfg.hostBase → runEvent (.access a) s = .refused .hostAccess) ∧
  ∀ (s : State) (a : Access) (off : Nat), a.addr = s.cfg.hostBase + off →
    ((a.width ≠ 32 ∧ a.width ≠ 64) ∨ (a.width = 32 ∧ (off % 4 ≠ 0 ∨ off = 0x20 ∨ off = 0x24 ∨ 0x40 ≤ off)) ∨
      (a.width = 64 ∧ off ≠ 0x20) → runEvent (.access a) s = .refused .hostAccess) ∧
    (a.width = 32 → off % 4 = 0 → off < 0x40 → off ≠ 0x20 → off ≠ 0x24 → a.write = true →
      runEvent (.access a) s = .next s) ∧
    (a.width = 32 → off % 4 = 0 → 0x14 ≤ off → off < 0x40 → off ≠ 0x20 → off ≠ 0x24 → a.write = false →
      runEvent (.access a) s = .next { s with busData := 0 }) ∧
    (a.width = 64 → off = 0x20 → a.write = false → runEvent (.access a) s = .next { s with busData := 0 })

/-- R44, R541: SINK consumes the samples in emission order, each once, and has no step when it has caught up. -/
def Obligations.SinkConsumesInOrder : Prop :=
  ∀ s : State,
    (∀ v, s.outStream[s.sinkPos]? = some v →
      runEvent .consume s = .next { s with sinkPos := s.sinkPos + 1, sinkData := v }) ∧
    (s.outStream.length ≤ s.sinkPos → runEvent .consume s = .refused .sinkEmpty)
end

