-- ==== Sys2Proof/Laws/Assembler.lean ====
section
/-! SUPPORT. The assembler's parts, one lemma each (30_encoding R183): the tokens of words and marks, the value of digits,
and the commands of a line. -/

namespace Sys2Proof.Machine

/-- A character that belongs to a word: no space and no mark. -/
abbrev plainChar (ch : Char) : Prop := ch ≠ ' ' ∧ tokenOfChar ch = none

/-- A word of the syntax: not empty, of plain characters. -/
abbrev plainWord (w : String) : Prop := w.toList ≠ [] ∧ ∀ ch ∈ w.toList, plainChar ch

/-- Plain characters are gathered. -/
theorem tokensFrom_plain (w rest acc : List Char) (h : ∀ ch ∈ w, plainChar ch) :
    tokensFrom acc (w ++ rest) = tokensFrom (w.reverse ++ acc) rest := by
  induction w generalizing acc with
  | nil => rfl
  | cons ch w ih =>
    obtain ⟨h1, h2⟩ := h ch (by simp)
    simp [tokensFrom, h1, h2, ih (ch :: acc) (fun x hx => h x (by simp [hx]))]

/-- The characters of a word make one token. -/
theorem flushWord_word (w : String) (h : w.toList ≠ []) (ts : List Token) :
    flushWord w.toList.reverse ts = .word w :: ts := by
  have : w.toList.reverse.isEmpty = false := by simpa using h
  simp [flushWord, this]

/-- A word and a space. -/
theorem tokensFrom_space (w : String) (rest : List Char) (hw : plainWord w) :
    tokensFrom [] (w.toList ++ ' ' :: rest) = .word w :: tokensFrom [] rest := by
  rw [tokensFrom_plain _ _ _ hw.2]
  simp [tokensFrom, flushWord_word w hw.1]

/-- A word, a comma and a space. -/
theorem tokensFrom_comma (w : String) (rest : List Char) (hw : plainWord w) :
    tokensFrom [] (w.toList ++ ',' :: ' ' :: rest) = .word w :: .comma :: tokensFrom [] rest := by
  rw [tokensFrom_plain _ _ _ hw.2]
  simp [tokensFrom, tokenOfChar, flushWord]
  simpa using hw.1

/-- The last word of a line. -/
theorem tokensFrom_last (w : String) (hw : plainWord w) : tokensFrom [] w.toList = [.word w] := by
  have h := tokensFrom_plain w.toList [] [] hw.2
  simp only [List.append_nil] at h
  rw [h, tokensFrom, flushWord_word w hw.1]

/-- R183: the words of operands parted by commas and spaces. -/
theorem operandWords_line (ws : List String) (last : String) (hw : ∀ w ∈ ws, plainWord w) (hl : plainWord last) :
    (∃ t ts, tokensFrom [] (ws.foldr (fun w l => w.toList ++ ',' :: ' ' :: l) last.toList) = t :: ts) ∧
      operandWords (tokensFrom [] (ws.foldr (fun w l => w.toList ++ ',' :: ' ' :: l) last.toList)) =
        some (ws ++ [last]) := by
  induction ws with
  | nil => simp [tokensFrom_last last hl, operandWords]
  | cons w ws ih =>
    obtain ⟨⟨t, ts, h1⟩, h2⟩ := ih (fun x hx => hw x (by simp [hx]))
    rw [List.foldr_cons, tokensFrom_comma w _ (hw w (by simp))]
    refine ⟨⟨_, _, rfl⟩, ?_⟩
    rw [h1] at h2
    rw [h1, operandWords, h2]
    rfl

/-- R183: a line of a mnemonic, a space, and operands parted by commas and spaces is the command of these words. -/
theorem assembleLine_words {c : Config} {m line : String} (ws : List String) (last : String) (hm : plainWord m)
    (hw : ∀ w ∈ ws, plainWord w) (hl : plainWord last)
    (h : line.toList = m.toList ++ ' ' :: ws.foldr (fun w l => w.toList ++ ',' :: ' ' :: l) last.toList) :
    assembleLine c line = assembleCmd c m (ws ++ [last]) := by
  simp only [assembleLine, tokens, h, tokensFrom_space m _ hm, (operandWords_line ws last hw hl).2, Option.bind_some]

/-- R183: the value of a digit's character, in either case. -/
theorem digitValue_of {base d : Nat} {ch : Char} (hb : base ≤ 16) (hd : d < base)
    (h : "0123456789abcdef".toList[d]? = some ch ∨ "0123456789ABCDEF".toList[d]? = some ch) :
    digitValue base ch = some d ∧ plainChar ch ∧ ch ≠ '-' ∧ ch ≠ 'x' := by
  have h16 : d < 16 := by omega
  interval_cases d <;> (simp at h; rcases h with rfl | rfl) <;> simp [digitValue, hd, plainChar, tokenOfChar]

/-- R183: the value of a string of digits. -/
theorem digitsValue_of {base : Nat} (hb : base ≤ 16) {cs : List Char} {ds : List Nat}
    (h : List.Forall₂ (fun ch d => d < base ∧
      ("0123456789abcdef".toList[d]? = some ch ∨ "0123456789ABCDEF".toList[d]? = some ch)) cs ds) (a : Nat) :
    digitsValue base a cs = some (ds.foldl (fun a d => base * a + d) a) := by
  induction h generalizing a with
  | nil => rfl
  | cons hd _ ih => simp [digitsValue, (digitValue_of hb hd.1 hd.2).1, ih]

/-- R183, R184: a line stands for commands alone. -/
theorem assembleCmd_commands {c : Config} {m : String} {args : List String} {is : List Instr}
    (h : assembleCmd c m args = some is) : ∀ i ∈ is, i.wf = true ∧ ∃ w, encode i = .cmd w := by
  unfold assembleCmd at h
  split at h
  all_goals try cases h
  all_goals
    obtain ⟨k, -, h⟩ := Option.bind_eq_some_iff.1 h
    repeat' split at h
  all_goals try cases h
  all_goals
    simp only [Option.map_eq_some_iff, Option.bind_eq_some_iff] at h
    intro i hi
  all_goals first
    | obtain ⟨x, _, rfl⟩ := h
      simp [expandPatternMask, expandGatelenAll] at hi
      first
        | subst hi; exact ⟨rfl, _, rfl⟩
        | obtain ⟨a, _, rfl⟩ := hi; exact ⟨rfl, _, rfl⟩
    | obtain ⟨x, _, y, _, rfl⟩ := h
      simp [expandOsc] at hi
      first
        | subst hi; exact ⟨rfl, _, rfl⟩
        | rcases hi with rfl | rfl <;> exact ⟨rfl, _, rfl⟩
    | obtain ⟨x, _, y, _, z, _, u, _, v, _, rfl⟩ := h
      simp [expandAdsr] at hi
      rcases hi with rfl | rfl | rfl | rfl | rfl <;> exact ⟨rfl, _, rfl⟩

end Sys2Proof.Machine
end

