-- ==== Sys2Proof/Laws/State.lean ====
section
/-! SUPPORT. What every update of State leaves in every field: one lemma a field. -/

namespace Sys2Proof.Machine

/-! ### setErr -/

@[simp] theorem setErr_cfg (b : ErrBit) (s : State) : (setErr b s).cfg = s.cfg := rfl
@[simp] theorem setErr_graph (b : ErrBit) (s : State) : (setErr b s).graph = s.graph := rfl
@[simp] theorem setErr_run (b : ErrBit) (s : State) : (setErr b s).run = s.run := rfl
@[simp] theorem setErr_tickCtr (b : ErrBit) (s : State) : (setErr b s).tickCtr = s.tickCtr := rfl
@[simp] theorem setErr_bufCtr (b : ErrBit) (s : State) : (setErr b s).bufCtr = s.bufCtr := rfl
@[simp] theorem setErr_sampleIndex (b : ErrBit) (s : State) : (setErr b s).sampleIndex = s.sampleIndex := rfl
@[simp] theorem setErr_cmdq (b : ErrBit) (s : State) : (setErr b s).cmdq = s.cmdq := rfl
@[simp] theorem setErr_closed (b : ErrBit) (s : State) : (setErr b s).closed = s.closed := rfl
@[simp] theorem setErr_outStream (b : ErrBit) (s : State) : (setErr b s).outStream = s.outStream := rfl
@[simp] theorem setErr_sampleOut (b : ErrBit) (s : State) : (setErr b s).sampleOut = s.sampleOut := rfl
@[simp] theorem setErr_beatIndex (b : ErrBit) (s : State) : (setErr b s).beatIndex = s.beatIndex := rfl
@[simp] theorem setErr_execTime (b : ErrBit) (s : State) : (setErr b s).execTime = s.execTime := rfl
@[simp] theorem setErr_err (b : ErrBit) (s : State) : (setErr b s).err = errSet s.err b := rfl
@[simp] theorem setErr_nodes (b : ErrBit) (s : State) : (setErr b s).nodes = s.nodes := rfl
@[simp] theorem setErr_agenda (b : ErrBit) (s : State) : (setErr b s).agenda = s.agenda := rfl
@[simp] theorem setErr_opr (b : ErrBit) (s : State) : (setErr b s).opr = s.opr := rfl
@[simp] theorem setErr_fxResult (b : ErrBit) (s : State) : (setErr b s).fxResult = s.fxResult := rfl
@[simp] theorem setErr_wsrcAnswers (b : ErrBit) (s : State) : (setErr b s).wsrcAnswers = s.wsrcAnswers := rfl
@[simp] theorem setErr_draws (b : ErrBit) (s : State) : (setErr b s).draws = s.draws := rfl
@[simp] theorem setErr_seen (b : ErrBit) (s : State) : (setErr b s).seen = s.seen := rfl
@[simp] theorem setErr_busData (b : ErrBit) (s : State) : (setErr b s).busData = s.busData := rfl
@[simp] theorem setErr_sinkPos (b : ErrBit) (s : State) : (setErr b s).sinkPos = s.sinkPos := rfl
@[simp] theorem setErr_sinkData (b : ErrBit) (s : State) : (setErr b s).sinkData = s.sinkData := rfl

/-! ### raiseFault -/

@[simp] theorem raiseFault_cfg (r : Fault) (s : State) : (raiseFault r s).cfg = s.cfg := rfl
@[simp] theorem raiseFault_graph (r : Fault) (s : State) : (raiseFault r s).graph = s.graph := rfl
@[simp] theorem raiseFault_run (r : Fault) (s : State) : (raiseFault r s).run = s.run := rfl
@[simp] theorem raiseFault_tickCtr (r : Fault) (s : State) : (raiseFault r s).tickCtr = s.tickCtr := rfl
@[simp] theorem raiseFault_bufCtr (r : Fault) (s : State) : (raiseFault r s).bufCtr = s.bufCtr := rfl
@[simp] theorem raiseFault_sampleIndex (r : Fault) (s : State) : (raiseFault r s).sampleIndex = s.sampleIndex := rfl
@[simp] theorem raiseFault_cmdq (r : Fault) (s : State) : (raiseFault r s).cmdq = s.cmdq := rfl
@[simp] theorem raiseFault_closed (r : Fault) (s : State) : (raiseFault r s).closed = s.closed := rfl
@[simp] theorem raiseFault_outStream (r : Fault) (s : State) : (raiseFault r s).outStream = s.outStream := rfl
@[simp] theorem raiseFault_sampleOut (r : Fault) (s : State) : (raiseFault r s).sampleOut = s.sampleOut := rfl
@[simp] theorem raiseFault_beatIndex (r : Fault) (s : State) : (raiseFault r s).beatIndex = s.beatIndex := rfl
@[simp] theorem raiseFault_execTime (r : Fault) (s : State) : (raiseFault r s).execTime = s.execTime := rfl
@[simp] theorem raiseFault_err (r : Fault) (s : State) : (raiseFault r s).err = errSet s.err .numFault := rfl
@[simp] theorem raiseFault_nodes (r : Fault) (s : State) : (raiseFault r s).nodes = s.nodes := rfl
@[simp] theorem raiseFault_agenda (r : Fault) (s : State) : (raiseFault r s).agenda = s.agenda := rfl
@[simp] theorem raiseFault_opr (r : Fault) (s : State) : (raiseFault r s).opr = s.opr := rfl
@[simp] theorem raiseFault_fxResult (r : Fault) (s : State) : (raiseFault r s).fxResult = .fault r := rfl
@[simp] theorem raiseFault_wsrcAnswers (r : Fault) (s : State) : (raiseFault r s).wsrcAnswers = s.wsrcAnswers := rfl
@[simp] theorem raiseFault_draws (r : Fault) (s : State) : (raiseFault r s).draws = s.draws := rfl
@[simp] theorem raiseFault_seen (r : Fault) (s : State) : (raiseFault r s).seen = s.seen := rfl
@[simp] theorem raiseFault_busData (r : Fault) (s : State) : (raiseFault r s).busData = s.busData := rfl
@[simp] theorem raiseFault_sinkPos (r : Fault) (s : State) : (raiseFault r s).sinkPos = s.sinkPos := rfl
@[simp] theorem raiseFault_sinkData (r : Fault) (s : State) : (raiseFault r s).sinkData = s.sinkData := rfl

/-! ### fxReturn -/

@[simp] theorem fxReturn_cfg (w f : Nat) (raw : BitVec 64) (s : State) : (fxReturn w f raw s).cfg = s.cfg := rfl
@[simp] theorem fxReturn_graph (w f : Nat) (raw : BitVec 64) (s : State) : (fxReturn w f raw s).graph = s.graph := rfl
@[simp] theorem fxReturn_run (w f : Nat) (raw : BitVec 64) (s : State) : (fxReturn w f raw s).run = s.run := rfl
@[simp] theorem fxReturn_tickCtr (w f : Nat) (raw : BitVec 64) (s : State) :
    (fxReturn w f raw s).tickCtr = s.tickCtr := rfl
@[simp] theorem fxReturn_bufCtr (w f : Nat) (raw : BitVec 64) (s : State) :
    (fxReturn w f raw s).bufCtr = s.bufCtr := rfl
@[simp] theorem fxReturn_sampleIndex (w f : Nat) (raw : BitVec 64) (s : State) :
    (fxReturn w f raw s).sampleIndex = s.sampleIndex := rfl
@[simp] theorem fxReturn_cmdq (w f : Nat) (raw : BitVec 64) (s : State) : (fxReturn w f raw s).cmdq = s.cmdq := rfl
@[simp] theorem fxReturn_closed (w f : Nat) (raw : BitVec 64) (s : State) :
    (fxReturn w f raw s).closed = s.closed := rfl
@[simp] theorem fxReturn_outStream (w f : Nat) (raw : BitVec 64) (s : State) :
    (fxReturn w f raw s).outStream = s.outStream := rfl
@[simp] theorem fxReturn_sampleOut (w f : Nat) (raw : BitVec 64) (s : State) :
    (fxReturn w f raw s).sampleOut = s.sampleOut := rfl
@[simp] theorem fxReturn_beatIndex (w f : Nat) (raw : BitVec 64) (s : State) :
    (fxReturn w f raw s).beatIndex = s.beatIndex := rfl
@[simp] theorem fxReturn_execTime (w f : Nat) (raw : BitVec 64) (s : State) :
    (fxReturn w f raw s).execTime = s.execTime := rfl
@[simp] theorem fxReturn_err (w f : Nat) (raw : BitVec 64) (s : State) : (fxReturn w f raw s).err = s.err := rfl
@[simp] theorem fxReturn_nodes (w f : Nat) (raw : BitVec 64) (s : State) : (fxReturn w f raw s).nodes = s.nodes := rfl
@[simp] theorem fxReturn_agenda (w f : Nat) (raw : BitVec 64) (s : State) :
    (fxReturn w f raw s).agenda = s.agenda := rfl
@[simp] theorem fxReturn_opr (w f : Nat) (raw : BitVec 64) (s : State) : (fxReturn w f raw s).opr = s.opr := rfl
@[simp] theorem fxReturn_fxResult (w f : Nat) (raw : BitVec 64) (s : State) :
    (fxReturn w f raw s).fxResult = .value w f raw := rfl
@[simp] theorem fxReturn_wsrcAnswers (w f : Nat) (raw : BitVec 64) (s : State) :
    (fxReturn w f raw s).wsrcAnswers = s.wsrcAnswers := rfl
@[simp] theorem fxReturn_draws (w f : Nat) (raw : BitVec 64) (s : State) : (fxReturn w f raw s).draws = s.draws := rfl
@[simp] theorem fxReturn_seen (w f : Nat) (raw : BitVec 64) (s : State) : (fxReturn w f raw s).seen = s.seen := rfl
@[simp] theorem fxReturn_busData (w f : Nat) (raw : BitVec 64) (s : State) :
    (fxReturn w f raw s).busData = s.busData := rfl
@[simp] theorem fxReturn_sinkPos (w f : Nat) (raw : BitVec 64) (s : State) :
    (fxReturn w f raw s).sinkPos = s.sinkPos := rfl
@[simp] theorem fxReturn_sinkData (w f : Nat) (raw : BitVec 64) (s : State) :
    (fxReturn w f raw s).sinkData = s.sinkData := rfl

/-! ### setNode -/

@[simp] theorem setNode_cfg (s : State) (i : Nat) (n : Node) : (setNode s i n).cfg = s.cfg := rfl
@[simp] theorem setNode_graph (s : State) (i : Nat) (n : Node) : (setNode s i n).graph = s.graph := rfl
@[simp] theorem setNode_run (s : State) (i : Nat) (n : Node) : (setNode s i n).run = s.run := rfl
@[simp] theorem setNode_tickCtr (s : State) (i : Nat) (n : Node) : (setNode s i n).tickCtr = s.tickCtr := rfl
@[simp] theorem setNode_bufCtr (s : State) (i : Nat) (n : Node) : (setNode s i n).bufCtr = s.bufCtr := rfl
@[simp] theorem setNode_sampleIndex (s : State) (i : Nat) (n : Node) :
    (setNode s i n).sampleIndex = s.sampleIndex := rfl
@[simp] theorem setNode_cmdq (s : State) (i : Nat) (n : Node) : (setNode s i n).cmdq = s.cmdq := rfl
@[simp] theorem setNode_closed (s : State) (i : Nat) (n : Node) : (setNode s i n).closed = s.closed := rfl
@[simp] theorem setNode_outStream (s : State) (i : Nat) (n : Node) : (setNode s i n).outStream = s.outStream := rfl
@[simp] theorem setNode_sampleOut (s : State) (i : Nat) (n : Node) : (setNode s i n).sampleOut = s.sampleOut := rfl
@[simp] theorem setNode_beatIndex (s : State) (i : Nat) (n : Node) : (setNode s i n).beatIndex = s.beatIndex := rfl
@[simp] theorem setNode_execTime (s : State) (i : Nat) (n : Node) : (setNode s i n).execTime = s.execTime := rfl
@[simp] theorem setNode_err (s : State) (i : Nat) (n : Node) : (setNode s i n).err = s.err := rfl
@[simp] theorem setNode_nodes (s : State) (i : Nat) (n : Node) : (setNode s i n).nodes = s.nodes.set i n := rfl
@[simp] theorem setNode_agenda (s : State) (i : Nat) (n : Node) : (setNode s i n).agenda = s.agenda := rfl
@[simp] theorem setNode_opr (s : State) (i : Nat) (n : Node) : (setNode s i n).opr = s.opr := rfl
@[simp] theorem setNode_fxResult (s : State) (i : Nat) (n : Node) : (setNode s i n).fxResult = s.fxResult := rfl
@[simp] theorem setNode_wsrcAnswers (s : State) (i : Nat) (n : Node) :
    (setNode s i n).wsrcAnswers = s.wsrcAnswers := rfl
@[simp] theorem setNode_draws (s : State) (i : Nat) (n : Node) : (setNode s i n).draws = s.draws := rfl
@[simp] theorem setNode_seen (s : State) (i : Nat) (n : Node) : (setNode s i n).seen = s.seen := rfl
@[simp] theorem setNode_busData (s : State) (i : Nat) (n : Node) : (setNode s i n).busData = s.busData := rfl
@[simp] theorem setNode_sinkPos (s : State) (i : Nat) (n : Node) : (setNode s i n).sinkPos = s.sinkPos := rfl
@[simp] theorem setNode_sinkData (s : State) (i : Nat) (n : Node) : (setNode s i n).sinkData = s.sinkData := rfl

/-! ### readReg -/

@[simp] theorem readReg_cfg (r : HostReg) (age : Nat) (s : State) : (readReg r age s).cfg = s.cfg := rfl
@[simp] theorem readReg_graph (r : HostReg) (age : Nat) (s : State) : (readReg r age s).graph = s.graph := rfl
@[simp] theorem readReg_run (r : HostReg) (age : Nat) (s : State) : (readReg r age s).run = s.run := rfl
@[simp] theorem readReg_tickCtr (r : HostReg) (age : Nat) (s : State) : (readReg r age s).tickCtr = s.tickCtr := rfl
@[simp] theorem readReg_bufCtr (r : HostReg) (age : Nat) (s : State) : (readReg r age s).bufCtr = s.bufCtr := rfl
@[simp] theorem readReg_sampleIndex (r : HostReg) (age : Nat) (s : State) :
    (readReg r age s).sampleIndex = s.sampleIndex := rfl
@[simp] theorem readReg_cmdq (r : HostReg) (age : Nat) (s : State) : (readReg r age s).cmdq = s.cmdq := rfl
@[simp] theorem readReg_closed (r : HostReg) (age : Nat) (s : State) : (readReg r age s).closed = s.closed := rfl
@[simp] theorem readReg_outStream (r : HostReg) (age : Nat) (s : State) :
    (readReg r age s).outStream = s.outStream := rfl
@[simp] theorem readReg_sampleOut (r : HostReg) (age : Nat) (s : State) :
    (readReg r age s).sampleOut = s.sampleOut := rfl
@[simp] theorem readReg_beatIndex (r : HostReg) (age : Nat) (s : State) :
    (readReg r age s).beatIndex = s.beatIndex := rfl
@[simp] theorem readReg_execTime (r : HostReg) (age : Nat) (s : State) :
    (readReg r age s).execTime = s.execTime := rfl
@[simp] theorem readReg_err (r : HostReg) (age : Nat) (s : State) : (readReg r age s).err = s.err := rfl
@[simp] theorem readReg_nodes (r : HostReg) (age : Nat) (s : State) : (readReg r age s).nodes = s.nodes := rfl
@[simp] theorem readReg_agenda (r : HostReg) (age : Nat) (s : State) : (readReg r age s).agenda = s.agenda := rfl
@[simp] theorem readReg_opr (r : HostReg) (age : Nat) (s : State) : (readReg r age s).opr = s.opr := rfl
@[simp] theorem readReg_fxResult (r : HostReg) (age : Nat) (s : State) :
    (readReg r age s).fxResult = s.fxResult := rfl
@[simp] theorem readReg_wsrcAnswers (r : HostReg) (age : Nat) (s : State) :
    (readReg r age s).wsrcAnswers = s.wsrcAnswers := rfl
@[simp] theorem readReg_draws (r : HostReg) (age : Nat) (s : State) : (readReg r age s).draws = s.draws := rfl
@[simp] theorem readReg_seen (r : HostReg) (age : Nat) (s : State) :
    (readReg r age s).seen = setWindow s.seen r ((window s.seen r).drop (windowIndex (window s.seen r) age)) := rfl
@[simp] theorem readReg_busData (r : HostReg) (age : Nat) (s : State) :
    (readReg r age s).busData =
      ((window s.seen r).getD (windowIndex (window s.seen r) age) (hostReg s r)).setWidth 64 := rfl
@[simp] theorem readReg_sinkPos (r : HostReg) (age : Nat) (s : State) : (readReg r age s).sinkPos = s.sinkPos := rfl
@[simp] theorem readReg_sinkData (r : HostReg) (age : Nat) (s : State) :
    (readReg r age s).sinkData = s.sinkData := rfl

/-! ### hostClose -/

@[simp] theorem hostClose_cfg (s : State) : (hostClose s).cfg = s.cfg := rfl
@[simp] theorem hostClose_graph (s : State) : (hostClose s).graph = s.graph := rfl
@[simp] theorem hostClose_run (s : State) : (hostClose s).run = s.run := rfl
@[simp] theorem hostClose_tickCtr (s : State) : (hostClose s).tickCtr = s.tickCtr := rfl
@[simp] theorem hostClose_bufCtr (s : State) : (hostClose s).bufCtr = s.bufCtr := rfl
@[simp] theorem hostClose_sampleIndex (s : State) : (hostClose s).sampleIndex = s.sampleIndex := rfl
@[simp] theorem hostClose_cmdq (s : State) : (hostClose s).cmdq = s.cmdq := rfl
@[simp] theorem hostClose_closed (s : State) : (hostClose s).closed = true := rfl
@[simp] theorem hostClose_outStream (s : State) : (hostClose s).outStream = s.outStream := rfl
@[simp] theorem hostClose_sampleOut (s : State) : (hostClose s).sampleOut = s.sampleOut := rfl
@[simp] theorem hostClose_beatIndex (s : State) : (hostClose s).beatIndex = s.beatIndex := rfl
@[simp] theorem hostClose_execTime (s : State) : (hostClose s).execTime = s.execTime := rfl
@[simp] theorem hostClose_err (s : State) : (hostClose s).err = s.err := rfl
@[simp] theorem hostClose_nodes (s : State) : (hostClose s).nodes = s.nodes := rfl
@[simp] theorem hostClose_agenda (s : State) : (hostClose s).agenda = s.agenda := rfl
@[simp] theorem hostClose_opr (s : State) : (hostClose s).opr = s.opr := rfl
@[simp] theorem hostClose_fxResult (s : State) : (hostClose s).fxResult = s.fxResult := rfl
@[simp] theorem hostClose_wsrcAnswers (s : State) : (hostClose s).wsrcAnswers = s.wsrcAnswers := rfl
@[simp] theorem hostClose_draws (s : State) : (hostClose s).draws = s.draws := rfl
@[simp] theorem hostClose_seen (s : State) : (hostClose s).seen = s.seen := rfl
@[simp] theorem hostClose_busData (s : State) : (hostClose s).busData = s.busData := rfl
@[simp] theorem hostClose_sinkPos (s : State) : (hostClose s).sinkPos = s.sinkPos := rfl
@[simp] theorem hostClose_sinkData (s : State) : (hostClose s).sinkData = s.sinkData := rfl

/-! ### stepAll -/

@[simp] theorem stepAll_cfg (s : State) : (stepAll s).cfg = s.cfg := rfl
@[simp] theorem stepAll_graph (s : State) : (stepAll s).graph = s.graph := rfl
@[simp] theorem stepAll_run (s : State) : (stepAll s).run = s.run := rfl
@[simp] theorem stepAll_tickCtr (s : State) : (stepAll s).tickCtr = s.tickCtr := rfl
@[simp] theorem stepAll_bufCtr (s : State) : (stepAll s).bufCtr = s.bufCtr := rfl
@[simp] theorem stepAll_sampleIndex (s : State) : (stepAll s).sampleIndex = s.sampleIndex := rfl
@[simp] theorem stepAll_cmdq (s : State) : (stepAll s).cmdq = s.cmdq := rfl
@[simp] theorem stepAll_closed (s : State) : (stepAll s).closed = s.closed := rfl
@[simp] theorem stepAll_outStream (s : State) : (stepAll s).outStream = s.outStream := rfl
@[simp] theorem stepAll_sampleOut (s : State) : (stepAll s).sampleOut = s.sampleOut := rfl
@[simp] theorem stepAll_beatIndex (s : State) : (stepAll s).beatIndex = s.beatIndex := rfl
@[simp] theorem stepAll_execTime (s : State) : (stepAll s).execTime = s.execTime := rfl
@[simp] theorem stepAll_err (s : State) : (stepAll s).err = s.err := rfl
@[simp] theorem stepAll_nodes (s : State) :
    (stepAll s).nodes = stepNodes s.cfg (List.range s.nodes.length) s.nodes := rfl
@[simp] theorem stepAll_agenda (s : State) : (stepAll s).agenda = s.agenda := rfl
@[simp] theorem stepAll_opr (s : State) : (stepAll s).opr = s.opr := rfl
@[simp] theorem stepAll_fxResult (s : State) : (stepAll s).fxResult = s.fxResult := rfl
@[simp] theorem stepAll_wsrcAnswers (s : State) : (stepAll s).wsrcAnswers = s.wsrcAnswers := rfl
@[simp] theorem stepAll_draws (s : State) : (stepAll s).draws = s.draws := rfl
@[simp] theorem stepAll_seen (s : State) : (stepAll s).seen = s.seen := rfl
@[simp] theorem stepAll_busData (s : State) : (stepAll s).busData = s.busData := rfl
@[simp] theorem stepAll_sinkPos (s : State) : (stepAll s).sinkPos = s.sinkPos := rfl
@[simp] theorem stepAll_sinkData (s : State) : (stepAll s).sinkData = s.sinkData := rfl

/-! ### tickAll -/

@[simp] theorem tickAll_cfg (s : State) : (tickAll s).cfg = s.cfg := rfl
@[simp] theorem tickAll_graph (s : State) : (tickAll s).graph = s.graph := rfl
@[simp] theorem tickAll_run (s : State) : (tickAll s).run = s.run := rfl
@[simp] theorem tickAll_tickCtr (s : State) : (tickAll s).tickCtr = s.tickCtr := rfl
@[simp] theorem tickAll_bufCtr (s : State) : (tickAll s).bufCtr = s.bufCtr := rfl
@[simp] theorem tickAll_sampleIndex (s : State) : (tickAll s).sampleIndex = s.sampleIndex := rfl
@[simp] theorem tickAll_cmdq (s : State) : (tickAll s).cmdq = s.cmdq := rfl
@[simp] theorem tickAll_closed (s : State) : (tickAll s).closed = s.closed := rfl
@[simp] theorem tickAll_outStream (s : State) : (tickAll s).outStream = s.outStream := rfl
@[simp] theorem tickAll_sampleOut (s : State) : (tickAll s).sampleOut = s.sampleOut := rfl
@[simp] theorem tickAll_beatIndex (s : State) : (tickAll s).beatIndex = s.beatIndex := rfl
@[simp] theorem tickAll_execTime (s : State) : (tickAll s).execTime = s.execTime := rfl
@[simp] theorem tickAll_err (s : State) : (tickAll s).err = s.err := rfl
@[simp] theorem tickAll_nodes (s : State) : (tickAll s).nodes = tickNodes (List.range s.nodes.length) s.nodes := rfl
@[simp] theorem tickAll_agenda (s : State) : (tickAll s).agenda = s.agenda := rfl
@[simp] theorem tickAll_opr (s : State) : (tickAll s).opr = s.opr := rfl
@[simp] theorem tickAll_fxResult (s : State) : (tickAll s).fxResult = s.fxResult := rfl
@[simp] theorem tickAll_wsrcAnswers (s : State) : (tickAll s).wsrcAnswers = s.wsrcAnswers := rfl
@[simp] theorem tickAll_draws (s : State) : (tickAll s).draws = s.draws := rfl
@[simp] theorem tickAll_seen (s : State) : (tickAll s).seen = s.seen := rfl
@[simp] theorem tickAll_busData (s : State) : (tickAll s).busData = s.busData := rfl
@[simp] theorem tickAll_sinkPos (s : State) : (tickAll s).sinkPos = s.sinkPos := rfl
@[simp] theorem tickAll_sinkData (s : State) : (tickAll s).sinkData = s.sinkData := rfl

/-! ### tickCount -/

@[simp] theorem tickCount_cfg (s : State) : (tickCount s).cfg = s.cfg := rfl
@[simp] theorem tickCount_graph (s : State) : (tickCount s).graph = s.graph := rfl
@[simp] theorem tickCount_run (s : State) : (tickCount s).run = s.run := rfl
@[simp] theorem tickCount_tickCtr (s : State) :
    (tickCount s).tickCtr = if tickFires s then s.cfg.tickPeriod - 1 else s.tickCtr - 1 := rfl
@[simp] theorem tickCount_bufCtr (s : State) : (tickCount s).bufCtr = s.bufCtr := rfl
@[simp] theorem tickCount_sampleIndex (s : State) : (tickCount s).sampleIndex = s.sampleIndex := rfl
@[simp] theorem tickCount_cmdq (s : State) : (tickCount s).cmdq = s.cmdq := rfl
@[simp] theorem tickCount_closed (s : State) : (tickCount s).closed = s.closed := rfl
@[simp] theorem tickCount_outStream (s : State) : (tickCount s).outStream = s.outStream := rfl
@[simp] theorem tickCount_sampleOut (s : State) : (tickCount s).sampleOut = s.sampleOut := rfl
@[simp] theorem tickCount_beatIndex (s : State) : (tickCount s).beatIndex = s.beatIndex := rfl
@[simp] theorem tickCount_execTime (s : State) : (tickCount s).execTime = s.execTime := rfl
@[simp] theorem tickCount_err (s : State) : (tickCount s).err = s.err := rfl
@[simp] theorem tickCount_nodes (s : State) : (tickCount s).nodes = s.nodes := rfl
@[simp] theorem tickCount_agenda (s : State) : (tickCount s).agenda = s.agenda := rfl
@[simp] theorem tickCount_opr (s : State) : (tickCount s).opr = s.opr := rfl
@[simp] theorem tickCount_fxResult (s : State) : (tickCount s).fxResult = s.fxResult := rfl
@[simp] theorem tickCount_wsrcAnswers (s : State) : (tickCount s).wsrcAnswers = s.wsrcAnswers := rfl
@[simp] theorem tickCount_draws (s : State) : (tickCount s).draws = s.draws := rfl
@[simp] theorem tickCount_seen (s : State) : (tickCount s).seen = s.seen := rfl
@[simp] theorem tickCount_busData (s : State) : (tickCount s).busData = s.busData := rfl
@[simp] theorem tickCount_sinkPos (s : State) : (tickCount s).sinkPos = s.sinkPos := rfl
@[simp] theorem tickCount_sinkData (s : State) : (tickCount s).sinkData = s.sinkData := rfl

/-! ### propagate -/

@[simp] theorem propagate_cfg (s : State) : (propagate s).cfg = s.cfg := rfl
@[simp] theorem propagate_graph (s : State) : (propagate s).graph = s.graph := rfl
@[simp] theorem propagate_run (s : State) : (propagate s).run = s.run := rfl
@[simp] theorem propagate_tickCtr (s : State) : (propagate s).tickCtr = s.tickCtr := rfl
@[simp] theorem propagate_bufCtr (s : State) : (propagate s).bufCtr = s.bufCtr := rfl
@[simp] theorem propagate_sampleIndex (s : State) : (propagate s).sampleIndex = s.sampleIndex := rfl
@[simp] theorem propagate_cmdq (s : State) : (propagate s).cmdq = s.cmdq := rfl
@[simp] theorem propagate_closed (s : State) : (propagate s).closed = s.closed := rfl
@[simp] theorem propagate_outStream (s : State) : (propagate s).outStream = s.outStream := rfl
@[simp] theorem propagate_sampleOut (s : State) : (propagate s).sampleOut = s.sampleOut := rfl
@[simp] theorem propagate_beatIndex (s : State) : (propagate s).beatIndex = s.beatIndex := rfl
@[simp] theorem propagate_execTime (s : State) : (propagate s).execTime = s.execTime := rfl
@[simp] theorem propagate_err (s : State) : (propagate s).err = s.err := rfl
@[simp] theorem propagate_nodes (s : State) : (propagate s).nodes = s.graph.wires.foldl propagateWire s.nodes := rfl
@[simp] theorem propagate_agenda (s : State) : (propagate s).agenda = s.agenda := rfl
@[simp] theorem propagate_opr (s : State) : (propagate s).opr = s.opr := rfl
@[simp] theorem propagate_fxResult (s : State) : (propagate s).fxResult = s.fxResult := rfl
@[simp] theorem propagate_wsrcAnswers (s : State) : (propagate s).wsrcAnswers = s.wsrcAnswers := rfl
@[simp] theorem propagate_draws (s : State) : (propagate s).draws = s.draws := rfl
@[simp] theorem propagate_seen (s : State) : (propagate s).seen = s.seen := rfl
@[simp] theorem propagate_busData (s : State) : (propagate s).busData = s.busData := rfl
@[simp] theorem propagate_sinkPos (s : State) : (propagate s).sinkPos = s.sinkPos := rfl
@[simp] theorem propagate_sinkData (s : State) : (propagate s).sinkData = s.sinkData := rfl

/-! ### emit -/

@[simp] theorem emit_cfg (s : State) : (emit s).cfg = s.cfg := rfl
@[simp] theorem emit_graph (s : State) : (emit s).graph = s.graph := rfl
@[simp] theorem emit_run (s : State) : (emit s).run = s.run := rfl
@[simp] theorem emit_tickCtr (s : State) : (emit s).tickCtr = s.tickCtr := rfl
@[simp] theorem emit_bufCtr (s : State) : (emit s).bufCtr = s.bufCtr := rfl
@[simp] theorem emit_sampleIndex (s : State) : (emit s).sampleIndex = s.sampleIndex := rfl
@[simp] theorem emit_cmdq (s : State) : (emit s).cmdq = s.cmdq := rfl
@[simp] theorem emit_closed (s : State) : (emit s).closed = s.closed := rfl
@[simp] theorem emit_outStream (s : State) : (emit s).outStream = s.outStream ++ [outputSample s] := rfl
@[simp] theorem emit_sampleOut (s : State) : (emit s).sampleOut = (outputSample s).setWidth 32 := rfl
@[simp] theorem emit_beatIndex (s : State) : (emit s).beatIndex = beatWord s.nodes := rfl
@[simp] theorem emit_execTime (s : State) : (emit s).execTime = s.execTime := rfl
@[simp] theorem emit_err (s : State) : (emit s).err = s.err := rfl
@[simp] theorem emit_nodes (s : State) : (emit s).nodes = s.nodes := rfl
@[simp] theorem emit_agenda (s : State) : (emit s).agenda = s.agenda := rfl
@[simp] theorem emit_opr (s : State) : (emit s).opr = s.opr := rfl
@[simp] theorem emit_fxResult (s : State) : (emit s).fxResult = s.fxResult := rfl
@[simp] theorem emit_wsrcAnswers (s : State) : (emit s).wsrcAnswers = s.wsrcAnswers := rfl
@[simp] theorem emit_draws (s : State) : (emit s).draws = s.draws := rfl
@[simp] theorem emit_seen (s : State) : (emit s).seen = s.seen := rfl
@[simp] theorem emit_busData (s : State) : (emit s).busData = s.busData := rfl
@[simp] theorem emit_sinkPos (s : State) : (emit s).sinkPos = s.sinkPos := rfl
@[simp] theorem emit_sinkData (s : State) : (emit s).sinkData = s.sinkData := rfl

/-! ### execUpdate -/

@[simp] theorem execUpdate_cfg (s : State) : (execUpdate s).cfg = s.cfg := rfl
@[simp] theorem execUpdate_graph (s : State) : (execUpdate s).graph = s.graph := rfl
@[simp] theorem execUpdate_run (s : State) : (execUpdate s).run = s.run := rfl
@[simp] theorem execUpdate_tickCtr (s : State) : (execUpdate s).tickCtr = s.tickCtr := rfl
@[simp] theorem execUpdate_bufCtr (s : State) :
    (execUpdate s).bufCtr = if bufferFull s then 0 else s.bufCtr + 1 := rfl
@[simp] theorem execUpdate_sampleIndex (s : State) : (execUpdate s).sampleIndex = s.sampleIndex := rfl
@[simp] theorem execUpdate_cmdq (s : State) : (execUpdate s).cmdq = s.cmdq := rfl
@[simp] theorem execUpdate_closed (s : State) : (execUpdate s).closed = s.closed := rfl
@[simp] theorem execUpdate_outStream (s : State) : (execUpdate s).outStream = s.outStream := rfl
@[simp] theorem execUpdate_sampleOut (s : State) : (execUpdate s).sampleOut = s.sampleOut := rfl
@[simp] theorem execUpdate_beatIndex (s : State) : (execUpdate s).beatIndex = s.beatIndex := rfl
@[simp] theorem execUpdate_execTime (s : State) :
    (execUpdate s).execTime = if bufferFull s then Config.execTimeDraw s.draws else s.execTime := rfl
@[simp] theorem execUpdate_err (s : State) : (execUpdate s).err = s.err := rfl
@[simp] theorem execUpdate_nodes (s : State) : (execUpdate s).nodes = s.nodes := rfl
@[simp] theorem execUpdate_agenda (s : State) : (execUpdate s).agenda = s.agenda := rfl
@[simp] theorem execUpdate_opr (s : State) : (execUpdate s).opr = s.opr := rfl
@[simp] theorem execUpdate_fxResult (s : State) : (execUpdate s).fxResult = s.fxResult := rfl
@[simp] theorem execUpdate_wsrcAnswers (s : State) : (execUpdate s).wsrcAnswers = s.wsrcAnswers := rfl
@[simp] theorem execUpdate_draws (s : State) :
    (execUpdate s).draws = if bufferFull s then s.draws + 1 else s.draws := rfl
@[simp] theorem execUpdate_seen (s : State) : (execUpdate s).seen = s.seen := rfl
@[simp] theorem execUpdate_busData (s : State) : (execUpdate s).busData = s.busData := rfl
@[simp] theorem execUpdate_sinkPos (s : State) : (execUpdate s).sinkPos = s.sinkPos := rfl
@[simp] theorem execUpdate_sinkData (s : State) : (execUpdate s).sinkData = s.sinkData := rfl

/-! ### publish -/

@[simp] theorem publish_cfg (s : State) : (publish s).cfg = s.cfg := rfl
@[simp] theorem publish_graph (s : State) : (publish s).graph = s.graph := rfl
@[simp] theorem publish_run (s : State) : (publish s).run = s.run := rfl
@[simp] theorem publish_tickCtr (s : State) : (publish s).tickCtr = s.tickCtr := rfl
@[simp] theorem publish_bufCtr (s : State) : (publish s).bufCtr = s.bufCtr := rfl
@[simp] theorem publish_sampleIndex (s : State) : (publish s).sampleIndex = s.sampleIndex := rfl
@[simp] theorem publish_cmdq (s : State) : (publish s).cmdq = s.cmdq := rfl
@[simp] theorem publish_closed (s : State) : (publish s).closed = s.closed := rfl
@[simp] theorem publish_outStream (s : State) : (publish s).outStream = s.outStream := rfl
@[simp] theorem publish_sampleOut (s : State) : (publish s).sampleOut = s.sampleOut := rfl
@[simp] theorem publish_beatIndex (s : State) : (publish s).beatIndex = s.beatIndex := rfl
@[simp] theorem publish_execTime (s : State) : (publish s).execTime = s.execTime := rfl
@[simp] theorem publish_err (s : State) : (publish s).err = s.err := rfl
@[simp] theorem publish_nodes (s : State) : (publish s).nodes = s.nodes := rfl
@[simp] theorem publish_agenda (s : State) : (publish s).agenda = s.agenda := rfl
@[simp] theorem publish_opr (s : State) : (publish s).opr = s.opr := rfl
@[simp] theorem publish_fxResult (s : State) : (publish s).fxResult = s.fxResult := rfl
@[simp] theorem publish_wsrcAnswers (s : State) : (publish s).wsrcAnswers = s.wsrcAnswers := rfl
@[simp] theorem publish_draws (s : State) : (publish s).draws = s.draws := rfl
@[simp] theorem publish_busData (s : State) : (publish s).busData = s.busData := rfl
@[simp] theorem publish_sinkPos (s : State) : (publish s).sinkPos = s.sinkPos := rfl
@[simp] theorem publish_sinkData (s : State) : (publish s).sinkData = s.sinkData := rfl

/-! ### takeAnswer -/

@[simp] theorem takeAnswer_cfg (s : State) : (takeAnswer s).cfg = s.cfg := by unfold takeAnswer; split <;> rfl
@[simp] theorem takeAnswer_graph (s : State) : (takeAnswer s).graph = s.graph := by unfold takeAnswer; split <;> rfl
@[simp] theorem takeAnswer_run (s : State) : (takeAnswer s).run = s.run := by unfold takeAnswer; split <;> rfl
@[simp] theorem takeAnswer_tickCtr (s : State) : (takeAnswer s).tickCtr = s.tickCtr := by unfold takeAnswer; split <;> rfl
@[simp] theorem takeAnswer_bufCtr (s : State) : (takeAnswer s).bufCtr = s.bufCtr := by unfold takeAnswer; split <;> rfl
@[simp] theorem takeAnswer_sampleIndex (s : State) : (takeAnswer s).sampleIndex = s.sampleIndex := by unfold takeAnswer; split <;> rfl
@[simp] theorem takeAnswer_cmdq (s : State) : (takeAnswer s).cmdq = s.cmdq := by unfold takeAnswer; split <;> rfl
@[simp] theorem takeAnswer_closed (s : State) : (takeAnswer s).closed = s.closed := by unfold takeAnswer; split <;> rfl
@[simp] theorem takeAnswer_outStream (s : State) : (takeAnswer s).outStream = s.outStream := by unfold takeAnswer; split <;> rfl
@[simp] theorem takeAnswer_sampleOut (s : State) : (takeAnswer s).sampleOut = s.sampleOut := by unfold takeAnswer; split <;> rfl
@[simp] theorem takeAnswer_beatIndex (s : State) : (takeAnswer s).beatIndex = s.beatIndex := by unfold takeAnswer; split <;> rfl
@[simp] theorem takeAnswer_execTime (s : State) : (takeAnswer s).execTime = s.execTime := by unfold takeAnswer; split <;> rfl
@[simp] theorem takeAnswer_err (s : State) : (takeAnswer s).err = s.err := by unfold takeAnswer; split <;> rfl
@[simp] theorem takeAnswer_nodes (s : State) : (takeAnswer s).nodes = s.nodes := by unfold takeAnswer; split <;> rfl
@[simp] theorem takeAnswer_agenda (s : State) : (takeAnswer s).agenda = s.agenda := by unfold takeAnswer; split <;> rfl
@[simp] theorem takeAnswer_opr (s : State) : (takeAnswer s).opr = s.opr := by unfold takeAnswer; split <;> rfl
@[simp] theorem takeAnswer_fxResult (s : State) : (takeAnswer s).fxResult = s.fxResult := by unfold takeAnswer; split <;> rfl
@[simp] theorem takeAnswer_seen (s : State) : (takeAnswer s).seen = s.seen := by unfold takeAnswer; split <;> rfl
@[simp] theorem takeAnswer_busData (s : State) : (takeAnswer s).busData = s.busData := by unfold takeAnswer; split <;> rfl
@[simp] theorem takeAnswer_sinkPos (s : State) : (takeAnswer s).sinkPos = s.sinkPos := by unfold takeAnswer; split <;> rfl
@[simp] theorem takeAnswer_sinkData (s : State) : (takeAnswer s).sinkData = s.sinkData := by unfold takeAnswer; split <;> rfl

/-! ### Nodes -/

@[simp] theorem setIn_ins (n : Node) (p : Nat) (v : Word) : (setIn n p v).ins = n.ins.set p v := rfl
@[simp] theorem setIn_outs (n : Node) (p : Nat) (v : Word) : (setIn n p v).outs = n.outs := rfl
@[simp] theorem setIn_body (n : Node) (p : Nat) (v : Word) : (setIn n p v).body = n.body := rfl
@[simp] theorem setOut_ins (n : Node) (p : Nat) (v : Word) : (setOut n p v).ins = n.ins := rfl
@[simp] theorem setOut_outs (n : Node) (p : Nat) (v : Word) : (setOut n p v).outs = n.outs.set p v := rfl
@[simp] theorem setOut_body (n : Node) (p : Nat) (v : Word) : (setOut n p v).body = n.body := rfl
@[simp] theorem nodeKind_setIn (n : Node) (p : Nat) (v : Word) : nodeKind (setIn n p v) = nodeKind n := rfl
@[simp] theorem nodeKind_setOut (n : Node) (p : Nat) (v : Word) : nodeKind (setOut n p v) = nodeKind n := rfl

/-! ### Windows -/

@[simp] theorem window_setWindow_same (v : Windows) (r : HostReg) (w : List HostWord) :
    window (setWindow v r w) r = w := by cases r <;> rfl

theorem window_setWindow_ne (v : Windows) (r r' : HostReg) (w : List HostWord) (h : r' ≠ r) :
    window (setWindow v r w) r' = window v r' := by
  cases r <;> cases r' <;> first | rfl | exact absurd rfl h

/-- R135: after a step the window of each register is its old one with the present value seen. -/
@[simp] theorem window_publish (s : State) (r : HostReg) :
    window (publish s).seen r = see (window s.seen r) (hostReg s r) := by cases r <;> rfl

@[simp] theorem hostReg_publish (s : State) (r : HostReg) : hostReg (publish s) r = hostReg s r := by
  cases r <;> rfl

/-- R135: the youngest value of a window that has seen v is v. -/
@[simp] theorem getLast?_see (w : List HostWord) (v : HostWord) : (see w v).getLast? = some v := by
  unfold see; split <;> simp_all

end Sys2Proof.Machine
end

