-- ==== Sys2Proof/Laws/Memory.lean ====
section
/-! SUPPORT. The laws of the entry-addressed memories (20_memory R123): read after write, and that every operation keeps a memory's form. -/

namespace Sys2Proof.Machine

/-- R123: an entry in range reads as it was written. -/
theorem memRead_memWrite_same (m : Memory) (i : Nat) (v : Word) (h : i < m.length) :
    memRead (memWrite m i v) i = v := by simp [memRead, memWrite, h]

/-- R123: every other entry reads as before. -/
theorem memRead_memWrite_ne (m : Memory) (i j : Nat) (v : Word) (h : j ≠ i) :
    memRead (memWrite m i v) j = memRead m j := by simp [memRead, memWrite, h.symm]

/-- R125: beyond the last entry the model reads 0 (log 19). -/
theorem memRead_beyond (m : Memory) (i : Nat) (h : m.length ≤ i) : memRead m i = 0 := by
  simp [memRead, List.getElem?_eq_none h]

/-- A write keeps the form. -/
theorem memWrite_wf {k : Nat} {m : Memory} (i : Nat) (v : Word) (h : Memory.wf k m) :
    Memory.wf k (memWrite m i v) := by simpa [Memory.wf, memWrite] using h

/-- R497: the copy keeps the form. -/
theorem copyInto_length (r : List Word) (m : Memory) : (copyInto r m).length = m.length := by
  induction r generalizing m with
  | nil => rfl
  | cons x r ih => cases m with
    | nil => rfl
    | cons y m => simp [copyInto, ih]

/-- R497: the copy keeps the form. -/
theorem copyInto_wf {k : Nat} {m : Memory} (r : List Word) (h : Memory.wf k m) : Memory.wf k (copyInto r m) := by
  simpa [Memory.wf, copyInto_length] using h

/-- R497: an entry below the copied length reads the sample; the rest read as before. -/
theorem copyInto_getElem? (r : List Word) (m : Memory) (i : Nat) (h : i < m.length) :
    (copyInto r m)[i]? = if i < r.length then r[i]? else m[i]? := by
  induction r generalizing m i with
  | nil => rfl
  | cons x r ih => cases m with
    | nil => simp at h
    | cons y m => cases i with
      | zero => simp [copyInto]
      | succ i => simpa [copyInto] using ih m i (by simpa using h)

/-- R123 PATTERN: a written bit reads as written, and every other bit as before. -/
theorem patRead_patWrite (p : BitVec 16) (i j : Nat) (b : Bool) (hi : i < 16) (hj : j < 16) :
    patRead (patWrite p i b) j = if j = i then b else patRead p j := by
  by_cases h : j = i
  · subst h; cases b <;> simp [patRead, patWrite, hi]
  · cases b <;> simp [patRead, patWrite, h, hj] <;> omega

/-- R56: GATELEN has 16 entries at reset. -/
theorem gatelenEntries_wf (g : List Word) : Memory.wf 16 (gatelenEntries g) := by
  simp [Memory.wf, gatelenEntries]

/-- R54: CUSTOM has N_TABLE entries at reset. -/
theorem custom_reset_wf (c : Config) : Memory.wf (nTable c) (List.replicate (nTable c) (0 : Word)) := by
  simp [Memory.wf]

/-- R57: a tap is well formed at reset. -/
theorem tap_reset_wf (tc : TapCfg) (h : 1 ≤ tc.len) :
    Memory.wf tc.len (List.replicate tc.len (0 : Word)) ∧ 0 < tc.len := ⟨by simp [Memory.wf], h⟩

/-- R404: a tap keeps its form, and its position stays below its length. -/
theorem tapNext_wf (x : Int) (tc : TapCfg) (t : TapSt) (h : Memory.wf tc.len t.buf) (hp : t.pos < tc.len) :
    Memory.wf tc.len (tapNext x tc t).buf ∧ (tapNext x tc t).pos < tc.len :=
  ⟨memWrite_wf _ _ h, Nat.mod_lt _ (Nat.lt_of_le_of_lt (Nat.zero_le _) hp)⟩

/-- R497: a load keeps CUSTOM's form. -/
theorem loadSamples_wf {c : Config} (r : List Word) {o : OscSt} (h : Memory.wf (nTable c) o.custom) :
    Memory.wf (nTable c) (loadSamples c r o).custom := copyInto_wf _ h

/-- The memories of a node hold their form right after reset, whatever the configuration, where every tap has a legal
length (R440 BAD_TAPS, R580 (3)). -/
theorem buildNode_bodyWf (c : Config) (nc : NodeCfg) (h : badTaps nc = false) : bodyWf c nc (buildNode c nc) := by
  cases hk : nc.kcfg with
  | env => simp [bodyWf, buildNode, initBody, hk]
  | osc w => simp [bodyWf, buildNode, initBody, hk, Memory.wf]
  | seq p g =>
    simp only [bodyWf, buildNode, initBody, hk]
    exact ⟨gatelenEntries_wf g, by simp [kcfgKind, outPorts, driveLevel, List.replicate]⟩
  | vca => simp [bodyWf, buildNode, initBody, hk]
  | mix => simp [bodyWf, buildNode, initBody, hk]
  | rev ts =>
    simp only [badTaps, hk, Bool.or_eq_false_iff, List.any_eq_false] at h
    simp only [bodyWf, buildNode, initBody, hk, List.forall₂_map_right_iff, List.forall₂_same]
    intro t ht
    have := h.2 t ht
    simp only [Bool.or_eq_true, beq_iff_eq, decide_eq_true_eq, not_or] at this
    exact ⟨by simp [Memory.wf], Nat.pos_of_ne_zero this.1⟩

/-- Every memory of the reset state has its form. -/
theorem reset_bodyWf : ∀ nc ∈ resetConfig.nodes, bodyWf resetConfig nc (buildNode resetConfig nc) := by
  intro nc h
  apply buildNode_bodyWf
  simp only [resetConfig, List.mem_cons, List.not_mem_nil, or_false] at h
  rcases h with rfl | rfl | rfl | rfl | rfl | rfl
  all_goals simp [badTaps]

/-- R339: the sine table has its 256 entries. -/
theorem sineRom_wf : Memory.wf 256 sineRom := by
  simp only [Memory.wf, sineRom, sineRomValues, List.length_map, List.length_append, List.length_cons, List.length_nil]

/-- R338: INC_ROM has its 128 entries. -/
theorem incRom_length : incRomValues.length = 128 := by
  simp only [incRomValues, List.length_append, List.length_cons, List.length_nil]

/-- R340, R341: the computed tables have theirs. -/
theorem computedRoms_wf (b : Nat) :
    Memory.wf (2 ^ b) (sawRom b) ∧ Memory.wf (2 ^ b) (triRom b) ∧ Memory.wf (2 ^ b) (squareRom b) ∧
      Memory.wf (2 ^ b) (noiseRom b) := by
  simp [Memory.wf, sawRom, triRom, squareRom, noiseRom]

end Sys2Proof.Machine
end

