-- ==== Sys2Proof/Laws/Ops.lean ====
section
/-! SUPPORT. What each shared operation can do, said once: the lemmas later proofs cite instead of unfolding the operation. -/

namespace Sys2Proof.Machine

/-! ### Commands -/

/-- R485: the target check passes exactly on an existing node of the kind. -/
theorem targetNode_eq_some {s : State} {k : Kind} {node : BitVec 8} {n : Node} :
    targetNode s k node = some n ↔ s.nodes[node.toNat]? = some n ∧ nodeKind n = k := by
  unfold targetNode
  cases h : s.nodes[node.toNat]? with
  | none => simp
  | some m => by_cases hk : nodeKind m = k <;> simp [hk] <;> rintro rfl <;> simp_all

/-- R485: an opcode's rule runs on its target, or ERR.BAD_TARGET is set. -/
theorem onTarget_cases (k : Kind) (node : BitVec 8) (f : Node → State) (s : State) :
    (onTarget k node f s = setErr .badTarget s ∧ ∀ n, s.nodes[node.toNat]? = some n → nodeKind n ≠ k) ∨
      ∃ n, s.nodes[node.toNat]? = some n ∧ nodeKind n = k ∧ onTarget k node f s = f n := by
  unfold onTarget
  cases h : targetNode s k node with
  | none =>
    refine .inl ⟨rfl, fun n hn hk => ?_⟩
    rw [targetNode_eq_some.2 ⟨hn, hk⟩] at h
    cases h
  | some n =>
    obtain ⟨h1, h2⟩ := targetNode_eq_some.1 h
    exact .inr ⟨n, h1, h2, rfl⟩

/-- A rule with a target of its kind runs. -/
theorem onTarget_of {k : Kind} {node : BitVec 8} {f : Node → State} {s : State} {n : Node}
    (h : s.nodes[node.toNat]? = some n) (hk : nodeKind n = k) : onTarget k node f s = f n := by
  simp [onTarget, targetNode_eq_some.2 ⟨h, hk⟩]

/-- A rule without one sets ERR.BAD_TARGET. -/
theorem onTarget_bad {k : Kind} {node : BitVec 8} {f : Node → State} {s : State}
    (h : ∀ n, s.nodes[node.toNat]? = some n → nodeKind n ≠ k) : onTarget k node f s = setErr .badTarget s := by
  rcases onTarget_cases k node f s with h' | ⟨n, h1, h2, _⟩
  · exact h'.1
  · exact absurd h2 (h n h1)

/-- A latch command writes one latch of its target, or sets one ERR bit. -/
theorem writeLatch_cases (k : Kind) (node : BitVec 8) (p : Nat) (v : Word) (s : State) :
    writeLatch k node p v s = setErr .badTarget s ∨
      ∃ n, s.nodes[node.toNat]? = some n ∧ nodeKind n = k ∧
        writeLatch k node p v s = setNode s node.toNat (setIn n p v) := by
  rcases onTarget_cases k node (fun n => setNode s node.toNat (setIn n p v)) s with h | h
  · exact .inl h.1
  · exact .inr h

/-- A step command writes one entry of its SEQ target, or sets one ERR bit. -/
theorem writeStep_cases (node elem : BitVec 8) (f : Nat → SeqSt → SeqSt) (s : State) :
    writeStep node elem f s = setErr .badTarget s ∨ writeStep node elem f s = setErr .badIndex s ∨
      ∃ n, s.nodes[node.toNat]? = some n ∧ nodeKind n = .seq ∧ elem.toNat ≤ 15 ∧
        writeStep node elem f s = setNode s node.toNat (mapSeq (f elem.toNat) n) := by
  rcases onTarget_cases .seq node (fun n =>
      if 15 < elem.toNat then setErr .badIndex s else setNode s node.toNat (mapSeq (f elem.toNat) n)) s with h | ⟨n, h1, h2, h3⟩
  · exact .inl h.1
  · by_cases he : 15 < elem.toNat
    · exact .inr (.inl (by simpa [writeStep, he] using h3))
    · exact .inr (.inr ⟨n, h1, h2, by omega, by simpa [writeStep, he] using h3⟩)

/-- R497: LOAD_WAVE sets one ERR bit, or copies the answer into its OSC target; past the target check it takes one
answer of WSRC. -/
theorem applyLoadWave_cases (node : BitVec 8) (h : BitVec 32) (s : State) :
    applyLoadWave node h s = setErr .badTarget s ∨
      (nextAnswer s h = .fail ∧ applyLoadWave node h s = setErr .loadFail (takeAnswer s)) ∨
      ∃ n r, s.nodes[node.toNat]? = some n ∧ nodeKind n = .osc ∧ nextAnswer s h = .samples r ∧
        applyLoadWave node h s = setNode (takeAnswer s) node.toNat (mapOsc (loadSamples s.cfg r) n) := by
  unfold applyLoadWave onTarget
  cases ht : targetNode s .osc node with
  | none => exact .inl rfl
  | some n =>
    obtain ⟨h1, h2⟩ := targetNode_eq_some.1 ht
    cases ha : nextAnswer s h with
    | fail => exact .inr (.inl ⟨rfl, rfl⟩)
    | samples r => exact .inr (.inr ⟨n, r, h1, h2, rfl, rfl⟩)

/-- What a command does: nothing or one ERR bit; one node changed; or, for LOAD_WAVE, one answer taken with a node
changed or an ERR bit set. -/
theorem applyCmd_cases (i : Instr) (s : State) :
    applyCmd i s = s ∨ (∃ b, applyCmd i s = setErr b s) ∨ applyCmd i s = setErr .loadFail (takeAnswer s) ∨
      ∃ j n, s.nodes[j]? = some n ∧
        ((∃ p v, applyCmd i s = setNode s j (setIn n p v)) ∨
          (∃ k b, applyCmd i s = setNode s j (mapSeq (fun q => { q with pattern := patWrite q.pattern k b }) n)) ∨
          (∃ k v, applyCmd i s = setNode s j (mapSeq (fun q => { q with gatelen := memWrite q.gatelen k v }) n)) ∨
          ∃ r, applyCmd i s = setNode (takeAnswer s) j (mapOsc (loadSamples s.cfg r) n)) := by
  have hL : ∀ k node p v, applyCmd i s = writeLatch k node p v s →
      applyCmd i s = s ∨ (∃ b, applyCmd i s = setErr b s) ∨ applyCmd i s = setErr .loadFail (takeAnswer s) ∨
      ∃ j n, s.nodes[j]? = some n ∧
        ((∃ p v, applyCmd i s = setNode s j (setIn n p v)) ∨
          (∃ k b, applyCmd i s = setNode s j (mapSeq (fun q => { q with pattern := patWrite q.pattern k b }) n)) ∨
          (∃ k v, applyCmd i s = setNode s j (mapSeq (fun q => { q with gatelen := memWrite q.gatelen k v }) n)) ∨
          ∃ r, applyCmd i s = setNode (takeAnswer s) j (mapOsc (loadSamples s.cfg r) n)) := by
    intro k node p v hi
    rcases writeLatch_cases k node p v s with h | ⟨n, hn, _, h⟩
    · exact .inr (.inl ⟨_, hi.trans h⟩)
    · exact .inr (.inr (.inr ⟨_, n, hn, .inl ⟨p, v, hi.trans h⟩⟩))
  cases i
  case setPattern node elem b =>
    rcases writeStep_cases node elem (fun i q => { q with pattern := patWrite q.pattern i b }) s with
      h | h | ⟨n, hn, _, _, h⟩
    · exact .inr (.inl ⟨_, h⟩)
    · exact .inr (.inl ⟨_, h⟩)
    · exact .inr (.inr (.inr ⟨_, n, hn, .inr (.inl ⟨_, _, h⟩)⟩))
  case setGatelen node elem v =>
    rcases writeStep_cases node elem (fun i q => { q with gatelen := memWrite q.gatelen i v }) s with
      h | h | ⟨n, hn, _, _, h⟩
    · exact .inr (.inl ⟨_, h⟩)
    · exact .inr (.inl ⟨_, h⟩)
    · exact .inr (.inr (.inr ⟨_, n, hn, .inr (.inr (.inl ⟨_, _, h⟩))⟩))
  case loadWave node h =>
    rcases applyLoadWave_cases node h s with h' | ⟨_, h'⟩ | ⟨n, r, hn, _, _, h'⟩
    · exact .inr (.inl ⟨_, h'⟩)
    · exact .inr (.inr (.inl h'))
    · exact .inr (.inr (.inr ⟨_, n, hn, .inr (.inr (.inr ⟨r, h'⟩))⟩))
  case setEnvAttackFor node v => exact hL .env node pAttackFor v rfl
  case setEnvAttackTo node v => exact hL .env node pAttackTo v rfl
  case setEnvDecayFor node v => exact hL .env node pDecayFor v rfl
  case setEnvSustainAt node v => exact hL .env node pSustainAt v rfl
  case setEnvReleaseFor node v => exact hL .env node pReleaseFor v rfl
  case setOscFreq node v => exact hL .osc node pFreq v rfl
  case setOscScale node v => exact hL .osc node pModDepth v rfl
  all_goals exact .inl rfl

/-- The state after one answer is taken differs in the answers and the draws alone. -/
theorem takeAnswer_frame (s : State) : ∃ a d, takeAnswer s = { s with wsrcAnswers := a, draws := d } := by
  unfold takeAnswer
  split
  · exact ⟨_, _, rfl⟩
  · exact ⟨_, _, rfl⟩

/-- A command changes nodes, ERR, the answers ready and the draws, and nothing else. -/
theorem applyCmd_frame (i : Instr) (s : State) :
    ∃ ns e a d, applyCmd i s = { s with nodes := ns, err := e, wsrcAnswers := a, draws := d } := by
  obtain ⟨a, d, ht⟩ := takeAnswer_frame s
  rcases applyCmd_cases i s with h | ⟨b, h⟩ | h | ⟨j, n, hn, ⟨p, v, h⟩ | ⟨k, b, h⟩ | ⟨k, v, h⟩ | ⟨r, h⟩⟩
  · exact ⟨_, _, _, _, h⟩
  · exact ⟨_, _, _, _, h⟩
  · rw [ht] at h; exact ⟨_, _, _, _, h⟩
  · exact ⟨_, _, _, _, h⟩
  · exact ⟨_, _, _, _, h⟩
  · exact ⟨_, _, _, _, h⟩
  · rw [ht] at h; exact ⟨_, _, _, _, h⟩

/-- Applying a word applies the command it decodes to, sets one ERR bit, or does nothing. -/
theorem applyWord_cases (w : CmdWord) (s : State) :
    (∃ i, decodeCmd w = .ok i ∧ applyWord w s = applyCmd i s) ∨ (∃ b, applyWord w s = setErr b s) ∨
      applyWord w s = s := by
  unfold applyWord
  cases decodeCmd w with
  | ok i => exact .inl ⟨i, rfl, rfl⟩
  | error e =>
    cases e with
    | badOpcode => exact .inr (.inl ⟨_, rfl⟩)
    | reservedBits => exact .inr (.inl ⟨_, rfl⟩)
    | reservedNum => exact .inr (.inr rfl)
    | reservedDisp => exact .inr (.inr rfl)

/-- Applying a word changes nodes, ERR, the answers ready and the draws, and nothing else. -/
theorem applyWord_frame (w : CmdWord) (s : State) :
    ∃ ns e a d, applyWord w s = { s with nodes := ns, err := e, wsrcAnswers := a, draws := d } := by
  rcases applyWord_cases w s with ⟨i, _, h⟩ | ⟨b, h⟩ | h
  · rw [h]; exact applyCmd_frame i s
  · exact ⟨_, _, _, _, h⟩
  · exact ⟨_, _, _, _, h⟩

/-! ### The engine -/

/-- R481: the drain changes nodes, ERR, the answers ready, the draws, the queue and RUN, and nothing else. -/
theorem drain_frame (s : State) : ∃ ns e a d, drain s =
    { s with nodes := ns, err := e, wsrcAnswers := a, draws := d, cmdq := [], run := if s.closed then false else s.run } := by
  have hF : ∀ (ws : List CmdWord) (u : State), ∃ ns e a d,
      ws.foldl (fun u w => applyWord w u) u = { u with nodes := ns, err := e, wsrcAnswers := a, draws := d } := by
    intro ws
    induction ws with
    | nil => intro u; exact ⟨_, _, _, _, rfl⟩
    | cons w ws ih =>
      intro u
      obtain ⟨ns, e, a, d, h⟩ := applyWord_frame w u
      obtain ⟨ns', e', a', d', h'⟩ := ih (applyWord w u)
      exact ⟨ns', e', a', d', by rw [List.foldl_cons, h', h]⟩
  obtain ⟨ns, e, a, d, h⟩ := hF s.cmdq { s with cmdq := [] }
  exact ⟨ns, e, a, d, by simp only [drain, h]⟩

/-- R450: an iteration does nothing in HALTED, drains and halts on a closed channel, and otherwise drains and goes on. -/
theorem iterate_cases (s : State) :
    (s.run = false ∧ iterate s = s) ∨ (s.run = true ∧ s.closed = true ∧ iterate s = drain s) ∨
      (s.run = true ∧ s.closed = false ∧ iterate s = afterDrain (drain s)) := by
  obtain ⟨ns, e, a, d, h⟩ := drain_frame s
  have hr : (drain s).run = if s.closed then false else s.run := by rw [h]
  unfold iterate
  cases h1 : s.run
  · simp
  · cases h2 : s.closed <;> simp [hr, h1, h2]

/-- The steps of a list of nodes keep their number. -/
theorem stepNodes_length (c : Config) (order : List Nat) (ns : List Node) :
    (stepNodes c order ns).length = ns.length := by
  unfold stepNodes
  induction order generalizing ns with
  | nil => rfl
  | cons i is ih => rw [List.foldl_cons, ih]; simp

/-- The ticks of a list of nodes keep their number. -/
theorem tickNodes_length (order : List Nat) (ns : List Node) : (tickNodes order ns).length = ns.length := by
  unfold tickNodes
  induction order generalizing ns with
  | nil => rfl
  | cons i is ih => rw [List.foldl_cons, ih]; simp

/-- The wires keep the number of nodes. -/
theorem propagateWires_length (ws : List RWire) (ns : List Node) :
    (ws.foldl propagateWire ns).length = ns.length := by
  induction ws generalizing ns with
  | nil => rfl
  | cons w ws ih => rw [List.foldl_cons, ih]; simp [propagateWire]

/-- A visit of every index once, in order, modifies every entry once. -/
theorem foldl_modify_range {α : Type} (f : Nat → α → α) (l : List α) (k i : Nat) :
    ((List.range k).foldl (fun ms j => ms.modify j (f j)) l)[i]? =
      if i < k then (l[i]?).map (f i) else l[i]? := by
  induction k with
  | zero => simp
  | succ k ih =>
    rw [List.range_succ, List.foldl_append]
    simp only [List.foldl_cons, List.foldl_nil, List.getElem?_modify, ih]
    by_cases h : k = i
    · subst h; simp
    · by_cases h' : i < k
      · simp [h, h', Nat.lt_succ_of_lt h']
      · have : ¬ i < k + 1 := by omega
        simp [h, h', this]

/-- R450 (b): every node steps once. -/
theorem stepAll_getElem? (s : State) (i : Nat) : (stepAll s).nodes[i]? = (s.nodes[i]?).map (stepNode s.cfg i) := by
  rw [stepAll_nodes, stepNodes, foldl_modify_range]
  split
  · rfl
  · rw [List.getElem?_eq_none (by omega)]; rfl

/-- R450 (c): every node ticks once. -/
theorem tickAll_getElem? (s : State) (i : Nat) : (tickAll s).nodes[i]? = (s.nodes[i]?).map tickNode := by
  rw [tickAll_nodes, tickNodes, foldl_modify_range (fun _ => tickNode)]
  split
  · rfl
  · rw [List.getElem?_eq_none (by omega)]; rfl

/-! ### One instruction -/

/-- What a STEP or TICK leaves: one node replaced by the node after its operation. -/
theorem onOperandNode_next {f : Node → Option Node} {s t : State} (h : onOperandNode f s = .next t) :
    ∃ n m, s.nodes[s.opr.node]? = some n ∧ f n = some m ∧ t = setNode s s.opr.node m := by
  unfold onOperandNode operandNode at h
  cases hn : s.nodes[s.opr.node]? with
  | none => simp [hn] at h
  | some n =>
    cases hf : f n with
    | none => simp [hn, hf] at h
    | some m =>
      simp only [hn, hf, Option.bind_some, Host.Outcome.next.injEq] at h
      exact ⟨n, m, rfl, hf, h.symm⟩

/-- A STEP or TICK on a node of its kind. -/
theorem onOperandNode_of {f : Node → Option Node} {s : State} {n m : Node} (h : s.nodes[s.opr.node]? = some n)
    (hf : f n = some m) : onOperandNode f s = .next (setNode s s.opr.node m) := by
  simp [onOperandNode, operandNode, h, hf]

/-- What an instruction does, where it answers a next state: a command is applied; the numeric unit returns or faults;
one node steps or ticks; or the engine's operation runs. -/
theorem exec_next {i : Instr} {s t : State} (h : exec i s = .next t) :
    (t = applyCmd i s) ∨ (∃ w f raw, t = fxReturn w f raw s) ∨ t = raiseFault .recipDivZero s ∨
      (∃ n, s.nodes[s.opr.node]? = some n ∧
        (t = setNode s s.opr.node (stepNode s.cfg s.opr.node n) ∨ t = setNode s s.opr.node (tickNode n))) ∨
      (∃ g, validate s.cfg = .ok g ∧ t = { s with graph := g }) ∨
      t = iterate s ∨ t = propagate s ∨ t = emit s ∨ t = drain s := by
  have hK : ∀ {f : Node → Option Node},
      (∀ n m, f n = some m → m = stepNode s.cfg s.opr.node n ∨ m = tickNode n) → onOperandNode f s = .next t →
      ∃ n, s.nodes[s.opr.node]? = some n ∧
        (t = setNode s s.opr.node (stepNode s.cfg s.opr.node n) ∨ t = setNode s s.opr.node (tickNode n)) := by
    intro f hf h
    obtain ⟨n, m, hn, hm, rfl⟩ := onOperandNode_next h
    rcases hf n m hm with rfl | rfl
    · exact ⟨n, hn, .inl rfl⟩
    · exact ⟨n, hn, .inr rfl⟩
  have hN : ∀ {u : State}, (Host.Outcome.next u : Host.Outcome State Fault Refusal) = .next t → t = u := by
    intro u h; cases h; rfl
  cases i with
  | fxRaw => exact .inr (.inl ⟨_, _, _, hN h⟩)
  | fxMul => exact .inr (.inl ⟨_, _, _, hN h⟩)
  | fxConvQ88Q80 => exact .inr (.inl ⟨_, _, _, hN h⟩)
  | fxConvQ88Q17 => exact .inr (.inl ⟨_, _, _, hN h⟩)
  | fxConv fa fb =>
    simp only [exec, execFxConv] at h
    split at h
    · exact .inr (.inl ⟨_, _, _, hN h⟩)
    · cases h
  | fxSadd fa fb =>
    simp only [exec, execFxSadd] at h
    split at h
    · exact .inr (.inl ⟨_, _, _, hN h⟩)
    · cases h
  | fxRecip fa =>
    simp only [exec, execFxRecip] at h
    split at h
    · have h' := hN h
      split at h'
      · exact .inr (.inr (.inl h'))
      · exact .inr (.inl ⟨_, _, _, h'⟩)
    · cases h
  | engValidate =>
    simp only [exec, execEngValidate] at h
    split at h
    · exact .inr (.inr (.inr (.inr (.inl ⟨_, ‹_›, hN h⟩))))
    · cases h
  | engIterate => exact .inr (.inr (.inr (.inr (.inr (.inl (hN h))))))
  | engPropagate => exact .inr (.inr (.inr (.inr (.inr (.inr (.inl (hN h)))))))
  | engEmit => exact .inr (.inr (.inr (.inr (.inr (.inr (.inr (.inl (hN h))))))))
  | engDrain => exact .inr (.inr (.inr (.inr (.inr (.inr (.inr (.inr (hN h))))))))
  | envStep =>
    refine .inr (.inr (.inr (.inl (hK (fun n m hf => ?_) h))))
    unfold asEnvStep at hf; split at hf <;> cases hf
    simp_all [stepNode]
  | oscStep =>
    refine .inr (.inr (.inr (.inl (hK (fun n m hf => ?_) h))))
    unfold asOscStep at hf; split at hf <;> cases hf
    simp_all [stepNode]
  | seqStep =>
    refine .inr (.inr (.inr (.inl (hK (fun n m hf => ?_) h))))
    unfold asSeqStep at hf; split at hf <;> cases hf
    simp_all [stepNode]
  | seqTick =>
    refine .inr (.inr (.inr (.inl (hK (fun n m hf => ?_) h))))
    unfold asSeqTick at hf; split at hf <;> cases hf
    simp_all [tickNode]
  | vcaStep =>
    refine .inr (.inr (.inr (.inl (hK (fun n m hf => ?_) h))))
    unfold asVcaStep at hf; split at hf <;> cases hf
    simp_all [stepNode]
  | mixStep =>
    refine .inr (.inr (.inr (.inl (hK (fun n m hf => ?_) h))))
    unfold asMixStep at hf; split at hf <;> cases hf
    simp_all [stepNode]
  | revStep =>
    refine .inr (.inr (.inr (.inl (hK (fun n m hf => ?_) h))))
    unfold asRevStep at hf; split at hf <;> cases hf
    simp_all [stepNode]
  | _ => exact .inl (hN h)

/-- R453: the propagation leaves a node's output registers and private fields. -/
theorem propagateWires_getElem? (ws : List RWire) (ns : List Node) (i : Nat) (n : Node) (h : ns[i]? = some n) :
    ∃ m, (ws.foldl propagateWire ns)[i]? = some m ∧ m.outs = n.outs ∧ m.body = n.body := by
  induction ws generalizing ns n with
  | nil => exact ⟨n, h, rfl, rfl⟩
  | cons w ws ih =>
    have hw : ∃ m, (propagateWire ns w)[i]? = some m ∧ m.outs = n.outs ∧ m.body = n.body := by
      simp only [propagateWire, List.getElem?_modify, h]
      refine ⟨_, rfl, ?_⟩
      split
      · cases w.dstPort <;> simp [writePort]
      · exact ⟨rfl, rfl⟩
    obtain ⟨m, h1, h2, h3⟩ := hw
    obtain ⟨m', h4, h5, h6⟩ := ih _ m h1
    exact ⟨m', h4, h5.trans h2, h6.trans h3⟩

/-! ### The windows (R135) -/

/-- An iteration leaves the windows: they are written after the agent's step. -/
@[simp] theorem iterate_seen (s : State) : (iterate s).seen = s.seen := by
  obtain ⟨ns, e, a, d, hd⟩ := drain_frame s
  have hA : ∀ u : State, (afterDrain u).seen = u.seen := by
    intro u
    simp only [afterDrain]
    unfold tickPhase
    split <;> simp
  rcases iterate_cases s with h | h | h
  · rw [h.2]
  · rw [h.2.2, hd]
  · rw [h.2.2, hA, hd]

/-- No instruction touches the windows. -/
theorem exec_seen {i : Instr} {s t : State} (h : exec i s = .next t) : t.seen = s.seen := by
  rcases exec_next h with h | ⟨w, f, raw, h⟩ | h | ⟨n, hn, h | h⟩ | ⟨g, hg, h⟩ | h | h | h | h <;> subst h
  · obtain ⟨_, _, _, _, h⟩ := applyCmd_frame i s
    rw [h]
  · rfl
  · rfl
  · rfl
  · rfl
  · rfl
  · exact iterate_seen s
  · rfl
  · rfl
  · obtain ⟨_, _, _, _, h⟩ := drain_frame s
    rw [h]

/-! ### The agents -/

/-- R122: what a HOST access does, where it is not refused. -/
theorem hostAccess_next {a : Access} {s t : State} (h : hostAccess a s = .next t) :
    (∃ r, a.write = false ∧ a.width = 32 ∧ s.cfg.hostBase ≤ a.addr ∧ regAt (a.addr - s.cfg.hostBase) = some r ∧
        t = readReg r a.age s) ∨ t = { s with busData := 0 } ∨ t = s ∨
      (∃ w, s.closed = false ∧ t = { s with cmdq := s.cmdq ++ [w] }) := by
  have hN : ∀ {u : State}, (Host.Outcome.next u : Host.Outcome State Fault Refusal) = .next t → t = u := by
    intro u h; cases h; rfl
  unfold hostAccess hostAt hostWrite32 hostRead32 hostWrite64 hostRead64 hostPush at h
  repeat' split at h
  all_goals first
    | cases h; done
    | exact .inl ⟨_, by simp_all, ‹_›, by omega, ‹_›, hN h⟩
    | exact .inr (.inl (hN h))
    | exact .inr (.inr (.inl (hN h)))
    | exact .inr (.inr (.inr ⟨_, by simp_all, hN h⟩))

/-- R541: what a SINK consume does, where it is not refused. -/
theorem sinkConsume_next {s t : State} (h : sinkConsume s = .next t) :
    ∃ v, s.outStream[s.sinkPos]? = some v ∧ t = { s with sinkPos := s.sinkPos + 1, sinkData := v } := by
  unfold sinkConsume at h
  split at h
  · cases h
  · cases h; exact ⟨_, ‹_›, rfl⟩

/-- What an action of an agent does, where it is not refused. -/
theorem runEvent_next {e : Event} {s t : State} (h : runEvent e s = .next t) :
    (t = iterate s) ∨
      (∃ a r, e = .access a ∧ a.write = false ∧ a.width = 32 ∧ s.cfg.hostBase ≤ a.addr ∧
        regAt (a.addr - s.cfg.hostBase) = some r ∧ t = readReg r a.age s) ∨ t = { s with busData := 0 } ∨ t = s ∨
      (∃ w, s.closed = false ∧ t = { s with cmdq := s.cmdq ++ [w] }) ∨ t = hostClose s ∨
      (∃ v, s.outStream[s.sinkPos]? = some v ∧ t = { s with sinkPos := s.sinkPos + 1, sinkData := v }) ∨
      (s.run = true ∧ ∃ ops, (∃ i, exec i { s with opr := ops } = .next t) ∨ ∃ d, t = discardWord d { s with opr := ops }) := by
  cases e with
  | strobe => cases h; exact .inl rfl
  | access a =>
    rcases hostAccess_next h with ⟨r, h⟩ | h | h | h
    · exact .inr (.inl ⟨a, r, rfl, h⟩)
    · exact .inr (.inr (.inl h))
    · exact .inr (.inr (.inr (.inl h)))
    · exact .inr (.inr (.inr (.inr (.inl h))))
  | close => cases h; exact .inr (.inr (.inr (.inr (.inr (.inl rfl)))))
  | consume => exact .inr (.inr (.inr (.inr (.inr (.inr (.inl (sinkConsume_next h)))))))
  | issue it ops =>
    simp only [runEvent, issueItem] at h
    split at h
    · refine .inr (.inr (.inr (.inr (.inr (.inr (.inr ⟨‹_›, ops, ?_⟩))))))
      unfold runItem at h
      split at h
      · exact .inl ⟨_, h⟩
      · unfold issueError at h
        split at h <;> cases h
        · exact .inr ⟨_, rfl⟩
        · exact .inr ⟨_, rfl⟩
    · cases h; exact .inr (.inr (.inr (.inl rfl)))

/-- R133: what a step does, where it answers a next state: the scheduled action, or a strobe, after which the host
registers are seen. -/
theorem step_next {s t : State} (h : step s = .next t) :
    (s.agenda = [] ∧ t = publish (iterate s)) ∨
      ∃ e rest u, s.agenda = e :: rest ∧ runEvent e { s with agenda := rest } = .next u ∧ t = publish u := by
  unfold step publishOutcome agentStep at h
  cases ha : s.agenda with
  | nil => simp only [ha, strobe, exec, execEngIterate] at h; cases h; exact .inl ⟨rfl, rfl⟩
  | cons e rest =>
    simp only [ha] at h
    split at h <;> cases h
    exact .inr ⟨e, rest, _, rfl, ‹_›, rfl⟩

end Sys2Proof.Machine
end

