-- ==== Sys2Proof/Laws/PerInstr.lean ====
section
/-! SUPPORT. The per-instruction family ByteRoundTrip: the bytes of every instruction's encoding, laid out as a byte-serial path carries them (20_memory R126), are read back as that encoding and no other. -/

namespace Sys2Proof

/-- R126: byte by byte, the number comes back modulo the bytes' capacity. -/
theorem natOfBytes_bytesOfNat (n w : Nat) : natOfBytes (bytesOfNat n w) = w % 256 ^ n := by
  induction n generalizing w with
  | zero => simp [bytesOfNat, natOfBytes, Nat.mod_one]
  | succ n ih =>
    have h : bytesOfNat (n + 1) w = BitVec.ofNat 8 w :: bytesOfNat n (w / 256) := by
      simp only [bytesOfNat, List.range_succ_eq_map, List.map_cons, List.map_map]
      refine congrArg₂ _ (by simp) (List.map_congr_left fun j _ => ?_)
      simp only [Function.comp, Nat.succ_eq_add_one, Nat.shiftRight_eq_div_pow]
      rw [Nat.div_div_eq_div_mul, show (256 : Nat) * 2 ^ (8 * j) = 2 ^ (8 * (j + 1)) by
        rw [Nat.mul_add, pow_add]; omega]
    rw [h, natOfBytes, ih, pow_succ, Nat.mul_comm (256 ^ n) 256, Nat.mod_mul]
    simp

/-- The bytes of a number are as many as asked for. -/
theorem bytesOfNat_length (n w : Nat) : (bytesOfNat n w).length = n := by simp [bytesOfNat]

/-- R126: every item is read back from its bytes. -/
theorem itemOfBytes_bytesOfItem (it : Item) : itemOfBytes (bytesOfItem it) = some it := by
  cases it with
  | cmd w =>
    simp only [bytesOfItem, itemOfBytes, bytesOfNat_length, natOfBytes_bytesOfNat]
    rw [Nat.mod_eq_of_lt (by have := w.isLt; omega)]; simp
  | num d =>
    simp only [bytesOfItem, itemOfBytes, bytesOfNat_length, natOfBytes_bytesOfNat]
    rw [Nat.mod_eq_of_lt (by have := d.isLt; omega)]; simp
  | disp c =>
    simp only [bytesOfItem, itemOfBytes, bytesOfNat_length, natOfBytes_bytesOfNat]
    rw [Nat.mod_eq_of_lt (by have := c.isLt; omega)]; simp

namespace Laws.ByteRoundTrip

/-- R126, R170: the bytes of the instruction's encoding are read back as that encoding. -/
def Statement (i : Instr) : Prop := itemOfBytes (bytesOfItem (encode i)) = some (encode i)

theorem setEnvAttackFor (node : BitVec 8) (v : Word) : Statement (.setEnvAttackFor node v) := itemOfBytes_bytesOfItem _
theorem setEnvAttackTo (node : BitVec 8) (v : Word) : Statement (.setEnvAttackTo node v) := itemOfBytes_bytesOfItem _
theorem setEnvDecayFor (node : BitVec 8) (v : Word) : Statement (.setEnvDecayFor node v) := itemOfBytes_bytesOfItem _
theorem setEnvSustainAt (node : BitVec 8) (v : Word) : Statement (.setEnvSustainAt node v) := itemOfBytes_bytesOfItem _
theorem setEnvReleaseFor (node : BitVec 8) (v : Word) : Statement (.setEnvReleaseFor node v) := itemOfBytes_bytesOfItem _
theorem setPattern (node : BitVec 8) (elem : BitVec 8) (b : Bool) : Statement (.setPattern node elem b) := itemOfBytes_bytesOfItem _
theorem setGatelen (node : BitVec 8) (elem : BitVec 8) (v : Word) : Statement (.setGatelen node elem v) := itemOfBytes_bytesOfItem _
theorem setOscFreq (node : BitVec 8) (v : Word) : Statement (.setOscFreq node v) := itemOfBytes_bytesOfItem _
theorem setOscScale (node : BitVec 8) (v : Word) : Statement (.setOscScale node v) := itemOfBytes_bytesOfItem _
theorem loadWave (node : BitVec 8) (h : BitVec 32) : Statement (.loadWave node h) := itemOfBytes_bytesOfItem _
theorem fxRaw (fa : Fmt) : Statement (.fxRaw fa) := itemOfBytes_bytesOfItem _
theorem fxMul (fa : Fmt) (fb : Fmt) : Statement (.fxMul fa fb) := itemOfBytes_bytesOfItem _
theorem fxConvQ88Q80 : Statement .fxConvQ88Q80 := itemOfBytes_bytesOfItem _
theorem fxConvQ88Q17 : Statement .fxConvQ88Q17 := itemOfBytes_bytesOfItem _
theorem fxConv (fa : Fmt) (fb : Fmt) : Statement (.fxConv fa fb) := itemOfBytes_bytesOfItem _
theorem fxSadd (fa : Fmt) (fb : Fmt) : Statement (.fxSadd fa fb) := itemOfBytes_bytesOfItem _
theorem fxRecip (fa : Fmt) : Statement (.fxRecip fa) := itemOfBytes_bytesOfItem _
theorem engValidate : Statement .engValidate := itemOfBytes_bytesOfItem _
theorem engIterate : Statement .engIterate := itemOfBytes_bytesOfItem _
theorem engPropagate : Statement .engPropagate := itemOfBytes_bytesOfItem _
theorem engEmit : Statement .engEmit := itemOfBytes_bytesOfItem _
theorem engDrain : Statement .engDrain := itemOfBytes_bytesOfItem _
theorem envStep : Statement .envStep := itemOfBytes_bytesOfItem _
theorem envTick : Statement .envTick := itemOfBytes_bytesOfItem _
theorem oscStep : Statement .oscStep := itemOfBytes_bytesOfItem _
theorem oscTick : Statement .oscTick := itemOfBytes_bytesOfItem _
theorem seqStep : Statement .seqStep := itemOfBytes_bytesOfItem _
theorem seqTick : Statement .seqTick := itemOfBytes_bytesOfItem _
theorem vcaStep : Statement .vcaStep := itemOfBytes_bytesOfItem _
theorem vcaTick : Statement .vcaTick := itemOfBytes_bytesOfItem _
theorem mixStep : Statement .mixStep := itemOfBytes_bytesOfItem _
theorem mixTick : Statement .mixTick := itemOfBytes_bytesOfItem _
theorem revStep : Statement .revStep := itemOfBytes_bytesOfItem _
theorem revTick : Statement .revTick := itemOfBytes_bytesOfItem _

end Laws.ByteRoundTrip

end Sys2Proof
end

