-- ==== Sys2Proof/Tests/Slice0.lean ====
section
/-! SUPPORT. Tests. The expected values are those of spec/95_test_vectors.md, named beside each test, or are worked out by hand from the rule named. The witnesses at the end show a state and operands that meet the hypotheses of each statement. -/

open Sys2Proof Sys2Proof.Machine

namespace Sys2Proof.Tests

/-! ### Helpers -/

/-- The reset configuration with the two OPEN arguments given values, so that a test can evaluate them. -/
def cfg : Config := { resetConfig with hostBase := 0, bufferLen := 2 }

/-- The block of `cfg` right after reset: env 0, osc 1, seq 2, vca 3, mix 4, rev 5. -/
def s0 : State := State.initial cfg (graphOf cfg)

/-- s0 with node i replaced, and the node operand on it. -/
def onNode (i : Nat) (n : Node) : State :=
  { s0 with nodes := s0.nodes.set i n, opr := { node := i, k := 0, a := 0, b := 0 } }

/-- s0 with the operands of the numeric unit. -/
def onOps (k : Int) (a b : BitVec 32) : State := { s0 with opr := { node := 0, k := k, a := a, b := b } }

/-- What `f` reads of the next state, if there is one. -/
def after {α : Type} (o : Host.Outcome State Fault Refusal) (f : State → α) : Option α :=
  match o with
  | .next t => some (f t)
  | .fault _ => none
  | .refused _ => none

/-- Why there is no next state, if that is so. -/
def refusal (o : Host.Outcome State Fault Refusal) : Option Refusal :=
  match o with
  | .next _ => none
  | .fault _ => none
  | .refused r => some r

/-- The result of one operation of the numeric unit. -/
def fx (i : Instr) (k : Int) (a b : BitVec 32) : Option FxResult := after (exec i (onOps k a b)) (·.fxResult)

/-- An ENV node of V-ENV-1 (A = 4, T = 0x7FFF, D = 4, S = 0x4000, R = 4). -/
def env (trig gate out : Word) (st : EnvState) (counter : BitVec 16) (armed opened : Bool) : Node :=
  { ins := [4, 0x7FFF, 4, 0x4000, 4, trig, gate]
    outs := [out]
    body := .env { state := st, counter := counter, trigArmed := armed, gateOpen := opened } }

/-- An OSC node. -/
def osc (freq mod depth : Word) (phase : Nat) (w : Wave) (custom : Memory) : Node :=
  { ins := [freq, mod, depth], outs := [0], body := .osc { phase := phase, wave := w, custom := custom } }

/-- A SEQ node of V-SEQ-1: steps 0, 1 and 3, GATELEN 2, 0, 0, 5. -/
def seq (beat : BitVec 4) (elapsed : BitVec 16) (gate trig : Bool) : Node :=
  { ins := []
    outs := [driveLevel gate, driveLevel trig]
    body := .seq { beat := beat, elapsed := elapsed, gateR := gate, trigR := trig, pattern := 0x000B
                   gatelen := [2, 0, 0, 5, 0, 0, 0, 0, 0, 0, 0, 0, 0, 0, 0, 0] } }

/-- The node i after a step, read from an outcome. -/
def nodeAfter (o : Host.Outcome State Fault Refusal) (i : Nat) : Option Node := (after o (·.nodes[i]?)).join

/-! ### WellFormed: each check refuses an ill-formed term (R179, R180) -/

theorem test_wf_conv_same_format : (Instr.fxConv .q1_15 .q1_15).wf = false := by decide
theorem test_wf_conv_special_pair_q80 : (Instr.fxConv .q8_8 .q8_0).wf = false := by decide
theorem test_wf_conv_special_pair_q17 : (Instr.fxConv .q8_8 .q1_7).wf = false := by decide
theorem test_wf_conv_admitted : (Instr.fxConv .q1_15 .q1_31).wf = true := by decide
theorem test_wf_sadd_two_formats : (Instr.fxSadd .q1_15 .q8_8).wf = false := by decide
theorem test_wf_recip_fraction_bits : (Instr.fxRecip .q1_15).wf = false := by decide

/-! ### Decoding: the fields written out from R171 to R173, R177 to R179 and R181 -/

/-- R171, R172: OP, NODE, ELEM, RSV, PAYLOAD of a command word, written out. -/
theorem test_decode_env_commands :
    decodeTableWord 64 0x01_00_00_00_00000064 = some (.setEnvAttackFor 0 100) ∧
    decodeTableWord 64 0x02_00_00_00_00007FFF = some (.setEnvAttackTo 0 0x7FFF) ∧
    decodeTableWord 64 0x03_01_00_00_0000000A = some (.setEnvDecayFor 1 10) ∧
    decodeTableWord 64 0x04_01_00_00_0000C000 = some (.setEnvSustainAt 1 0xC000) ∧
    decodeTableWord 64 0x05_00_00_00_0000FFFF = some (.setEnvReleaseFor 0 65535) := by decide

theorem test_decode_seq_commands :
    decodeTableWord 64 0x10_03_0F_00_00000000 = some (.setPattern 3 15 false) ∧
    decodeTableWord 64 0x10_00_04_00_00000001 = some (.setPattern 0 4 true) ∧
    decodeTableWord 64 0x11_00_0F_00_0000FFFF = some (.setGatelen 0 15 65535) := by decide

theorem test_decode_osc_commands :
    decodeTableWord 64 0x20_02_00_00_0000FFFF = some (.setOscFreq 2 0xFFFF) ∧
    decodeTableWord 64 0x21_00_00_00_00004000 = some (.setOscScale 0 0x4000) ∧
    decodeTableWord 64 0x30_FF_00_00_FFFFFFFF = some (.loadWave 255 0xFFFFFFFF) := by decide

/-- R171 bit by bit: SET_GATELEN, NODE 129, ELEM 3, RSV 0, PAYLOAD 0x8001. -/
theorem test_decode_gatelen_bits :
    decodeTableWord 64 0b00010001_10000001_00000011_00000000_00000000_00000000_10000000_00000001 =
      some (.setGatelen 129 3 0x8001) := by decide

/-- R177 bit by bit: FOP, FA, FB, twenty zeros. -/
theorem test_decode_num_bits :
    decodeTableWord 32 0b0000_0011_0000_00000000000000000000 = some (.fxRaw .q1_15) ∧
    decodeTableWord 32 0b0001_0100_0000_00000000000000000000 = some (.fxMul .q8_8 .q1_7) ∧
    decodeTableWord 32 0b0010_0100_0001_00000000000000000000 = some .fxConvQ88Q80 ∧
    decodeTableWord 32 0b0010_0100_0000_00000000000000000000 = some .fxConvQ88Q17 ∧
    decodeTableWord 32 0b0010_0011_0101_00000000000000000000 = some (.fxConv .q1_15 .q1_31) ∧
    decodeTableWord 32 0b0011_0011_0011_00000000000000000000 = some (.fxSadd .q1_15 .q1_15) ∧
    decodeTableWord 32 0b0100_0111_0000_00000000000000000000 = some (.fxRecip .q32_0) := by decide

/-- R180: the reserved descriptors of 95 section 2.6. -/
theorem test_decode_num_reserved :
    [0x34300000, 0x23300000, 0x43000000, 0x13300001, 0x50000000].map (decodeTableWord 32) =
      [none, none, none, none, none] := by decide

/-- R181 bit by bit. -/
theorem test_decode_disp_bits :
    [0b00000000, 0b00000001, 0b00000010, 0b00000011, 0b00000100].map (decodeTableWord 8) =
      [some .engValidate, some .engIterate, some .engPropagate, some .engEmit, some .engDrain] ∧
    [0b00010000, 0b00010001, 0b00100000, 0b00100001].map (decodeTableWord 8) =
      [some .envStep, some .envTick, some .oscStep, some .oscTick] ∧
    [0b00110000, 0b00110001, 0b01000000, 0b01000001].map (decodeTableWord 8) =
      [some .seqStep, some .seqTick, some .vcaStep, some .vcaTick] ∧
    [0b01010000, 0b01010001, 0b01100000, 0b01100001].map (decodeTableWord 8) =
      [some .mixStep, some .mixTick, some .revStep, some .revTick] ∧
    [0b00000101, 0b00010010, 0b01110000, 0b11111111].map (decodeTableWord 8) = [none, none, none, none] := by decide

/-- R126: the first byte of a byte-serial word is its lowest. -/
theorem test_bytes_little_endian :
    bytesOfItem (.cmd 0x0102030405060708) = [8, 7, 6, 5, 4, 3, 2, 1] := by decide

/-! ### The numeric unit (95 sections 2.1 to 2.5) -/

theorem test_fxRaw_wraps :
    fx (.fxRaw .q1_15) 32768 0 0 = some (.value 16 15 0x8000) ∧
    fx (.fxRaw .q1_7) (-129) 0 0 = some (.value 8 7 0x7F) := by decide

theorem test_fxMul_exact :
    fx (.fxMul .q1_15 .q1_15) 0 0x7FFF 0x8000 = some (.value 32 30 0xC0008000) ∧
    fx (.fxMul .q8_8 .q1_7) 0 0x0180 0x40 = some (.value 24 15 0x006000) ∧
    fx (.fxMul .q1_31 .q1_31) 0 0x7FFFFFFF 0x7FFFFFFF = some (.value 64 62 0x3FFFFFFF00000001) := by decide

theorem test_fxConv_special_rows :
    fx .fxConvQ88Q80 0 0xFE80 0 = some (.value 8 0 0xFE) ∧
    fx .fxConvQ88Q17 0 0x00C0 0 = some (.value 8 7 0xC0) ∧
    fx .fxConvQ88Q17 0 0x7F80 0 = some (.value 8 7 0x80) := by decide

theorem test_fxConv_floors_and_extends :
    fx (.fxConv .q1_31 .q1_15) 0 0xFFFF8000 0 = some (.value 16 15 0xFFFF) ∧
    fx (.fxConv .q1_15 .q16_15) 0 0xC000 0 = some (.value 32 15 0xFFFFC000) ∧
    fx (.fxConv .q32_0 .q16_15) 0 0x00010000 0 = some (.value 32 15 0x80000000) := by decide

theorem test_fxSadd_clamps :
    fx (.fxSadd .q1_15 .q1_15) 0 0x7000 0x2000 = some (.value 16 15 0x7FFF) ∧
    fx (.fxSadd .q8_0 .q8_0) 0 0x80 0xFF = some (.value 8 0 0x80) := by decide

theorem test_fxRecip_values :
    fx (.fxRecip .q32_0) 0 0xFFFFFFFD 0 = some (.value 32 31 0xD5555556) ∧
    fx (.fxRecip .q16_0) 0 1 0 = some (.value 16 15 0x7FFF) ∧
    fx (.fxRecip .q8_0) 0 0x80 0 = some (.value 8 7 0xFF) := by decide

theorem test_fxRecip_zero_faults :
    after (exec (.fxRecip .q8_0) (onOps 0 0 0)) (fun t => (t.fxResult, t.err)) =
      some (.fault .recipDivZero, 0x20) := by decide

/-! ### ENV (V-ENV-1, V-ENV-2, V-ENV-4) -/

/-- V-ENV-1 step 1, the trigger edge. -/
theorem test_envStep_triggers :
    nodeAfter (exec .envStep (onNode 0 (env 0x7FFF 0x7FFF 0 .off 0 true false))) 0 =
      some (env 0x7FFF 0x7FFF 0 .attack 0 false true) := by decide

/-- V-ENV-1 step 13, the release ramp. -/
theorem test_envStep_releases :
    nodeAfter (exec .envStep (onNode 0 (env 0 0 12288 .release 1 true false))) 0 =
      some (env 0 0 8192 .release 2 true false) := by decide

/-- V-ENV-8. -/
theorem test_envTick_nothing : exec .envTick (onNode 0 (env 0 0 5 .decay 1 true true)) =
    .next (onNode 0 (env 0 0 5 .decay 1 true true)) := rfl

/-! ### OSC (V-OSC-1 step 2, V-OSC-4) -/

/-- V-OSC-1 step 2 with Sine. -/
theorem test_oscStep_sine :
    (nodeAfter (exec .oscStep (onNode 1 (osc 69 0 0 42852281 .sine []))) 1).map (fun n => (n.outs, n.body)) =
      some ([4011], .osc { phase := 85704562, wave := .sine, custom := [] }) := by decide

/-- V-OSC-4, mod 0x8001 with depth 0x7FFF, and V-OSC-2, the note clamped from −1 to 0. -/
theorem test_oscStep_modulation_and_clamp :
    (nodeAfter (exec .oscStep (onNode 1 (osc 69 0x8001 0x7FFF 1307 .sine []))) 1).map (·.body) =
      some (.osc { phase := 2614, wave := .sine, custom := [] }) ∧
    (nodeAfter (exec .oscStep (onNode 1 (osc 0xFFFF 0 0 0 .sine []))) 1).map (·.body) =
      some (.osc { phase := 796254, wave := .sine, custom := [] }) := by decide

/-! ### SEQ (V-SEQ-1) -/

/-- Iteration 4: the tick opens step 1. -/
theorem test_seqTick_opens : nodeAfter (exec .seqTick (onNode 2 (seq 0 3 false false))) 2 = some (seq 1 0 true true) := by
  decide

/-- Iteration 8: the tick on the inactive step 2 clears both flags and keeps the count; from beat 15 it wraps to 0. -/
theorem test_seqTick_inactive_and_wraps :
    nodeAfter (exec .seqTick (onNode 2 (seq 1 4 true true))) 2 = some (seq 2 4 false false) ∧
    nodeAfter (exec .seqTick (onNode 2 (seq 15 0 false false))) 2 = some (seq 0 0 true true) := by decide

/-- Iterations 2 and 3: GATELEN 2 holds the gate through the second STEP. -/
theorem test_seqStep_gate :
    nodeAfter (exec .seqStep (onNode 2 (seq 0 1 true false))) 2 = some (seq 0 2 true false) ∧
    nodeAfter (exec .seqStep (onNode 2 (seq 0 2 true false))) 2 = some (seq 0 3 false false) := by decide

/-! ### VCA, MIX, REV (V-VCA, V-MIX, V-REV-1) -/

theorem test_vcaStep :
    (nodeAfter (exec .vcaStep (onNode 3 { ins := [0xC000, 0x4000], outs := [0], body := .vca })) 3).map (·.outs) =
      some [0xE000] ∧
    (nodeAfter (exec .vcaStep (onNode 3 { ins := [0x8000, 0x8000], outs := [0], body := .vca })) 3).map (·.outs) =
      some [0x8000] := by decide

theorem test_mixStep :
    (nodeAfter (exec .mixStep (onNode 4 { ins := [0x0FAB, 0x4000, 0x8200, 0x4000], outs := [0], body := .mix })) 4).map
      (·.outs) = some [0xC8D5] := by decide

/-- V-REV-1 step 1 on a block whose REV node has one tap of length 2 and gain 0x4000: output 8192, the impulse stored. -/
theorem test_revStep :
    let c := { cfg with nodes := [{ name := "r", kcfg := .rev [{ len := 2, gain := 0x4000 }], initIn := [] }] }
    let n : Node := { ins := [0x4000], outs := [0], body := .rev [{ buf := [0, 0], pos := 0 }] }
    nodeAfter (exec .revStep { s0 with cfg := c, nodes := [n] }) 0 =
      some { n with outs := [8192], body := .rev [{ buf := [0x4000, 0], pos := 1 }] } := by decide

/-- The TICKs of R264 change nothing; a STEP issued on another kind of node is refused (log 14). -/
theorem test_ticks_and_wrong_kind :
    exec .oscTick s0 = .next s0 ∧ exec .vcaTick s0 = .next s0 ∧ exec .mixTick s0 = .next s0 ∧
      exec .revTick s0 = .next s0 ∧ refusal (exec .oscStep s0) = some .wrongKind := by
  refine ⟨rfl, rfl, rfl, rfl, by decide⟩

/-! ### Commands (V-CMD-3, V-CMD-4, V-CMD-5) -/

/-- The first ENV latch commands write ports 0 to 4, and no other. -/
theorem test_env_commands_write_ports :
    ([Instr.setEnvAttackFor 0 9, .setEnvAttackTo 0 9, .setEnvDecayFor 0 9, .setEnvSustainAt 0 9,
        .setEnvReleaseFor 0 9].map fun i => (nodeAfter (exec i s0) 0).map (·.ins)) =
      [some [9, 0, 0, 0, 0, 0, 0], some [0, 9, 0, 0, 0, 0, 0], some [0, 0, 9, 0, 0, 0, 0],
        some [0, 0, 0, 9, 0, 0, 0], some [0, 0, 0, 0, 9, 0, 0]] := by decide

theorem test_osc_commands_write_ports :
    ([Instr.setOscFreq 1 81, .setOscScale 1 0x4000].map fun i => (nodeAfter (exec i s0) 1).map (·.ins)) =
      [some [81, 0, 0], some [0, 0, 0x4000]] := by decide

/-- R492, R493: one bit of PATTERN, one entry of GATELEN. -/
theorem test_seq_commands :
    (nodeAfter (exec (.setPattern 2 2 true) (onNode 2 (seq 0 0 false false))) 2).map (fun n =>
        match n.body with
        | .seq q => q.pattern
        | _ => 0) = some 0x000F ∧
    (nodeAfter (exec (.setGatelen 2 1 7) (onNode 2 (seq 0 0 false false))) 2).map (fun n =>
        match n.body with
        | .seq q => q.gatelen.take 4
        | _ => []) = some [2, 7, 0, 5] := by decide

/-- V-CMD-3, one word for each check, applied to s0 (nodes 0 ENV, 1 OSC, 2 SEQ). -/
theorem test_command_checks :
    ([0x0700000000000000, 0x0105000000010000, 0x1002040000000002, 0x1101000100000040, 0x3001010000000007,
        0x1000040000000001, 0x2009000000000045, 0x1005100000000001, 0x1102100000000005].map fun w =>
          (applyWord w s0).err) = [1, 2, 2, 2, 2, 4, 4, 4, 8] := by decide

/-- V-CMD-4 with a short answer: two entries copied, Custom selected. -/
theorem test_loadWave_copies :
    (nodeAfter (exec (.loadWave 1 7) { s0 with wsrcAnswers := [.samples [100, 200]] }) 1).map (fun n =>
        match n.body with
        | .osc o => (o.wave, o.custom.take 3)
        | _ => (.sine, [])) = some (.custom, [100, 200, 0]) := by decide

/-- V-CMD-3: a load failure. -/
theorem test_loadWave_fails :
    after (exec (.loadWave 1 9) { s0 with wsrcAnswers := [.fail, .fail] }) (fun t => (t.err, t.wsrcAnswers.length)) =
      some (0x10, 1) := by decide

/-! ### The engine -/

/-- V-CMD-5: the queue in order; the later word wins. -/
theorem test_engDrain_order :
    (nodeAfter (exec .engDrain { s0 with cmdq := [0x010000000000000A, 0x0100000000000014] }) 0).map (·.ins.take 1) =
      some [20] := by decide

/-- V-ENG-5: the close with an empty queue halts at the drain. -/
theorem test_engIterate_halts :
    after (exec .engIterate { s0 with closed := true }) (fun t => (t.run, statusWord t, t.outStream)) =
      some (false, 6, []) := by decide

/-- V-ENG-4 without a note: iteration 0 emits the sine of note 0 (R332, R338: phase 796254, entry 0). -/
theorem test_engIterate_emits :
    after (exec .engIterate s0) (fun t => (t.outStream, t.sampleIndex, t.tickCtr, t.bufCtr, t.beatIndex)) =
      some ([0], 1, 0, 1, 0) := by decide

/-- V-ENG-3 in small: the second wire to a latch wins. -/
theorem test_engPropagate_last_wins :
    let w : Nat → RWire := fun i => { src := i, srcPort := some 0, dst := 3, dstPort := some 1 }
    let n : Word → Node := fun v => { ins := [], outs := [v], body := .vca }
    let t := { s0 with
      nodes := [n 5, n 6, n 7, { ins := [1, 2], outs := [9], body := .vca }]
      graph := { s0.graph with wires := [w 0, w 1] } }
    (nodeAfter (exec .engPropagate t) 3).map (·.ins) = some [1, 6] := by decide

/-- R455: the output register, a negative sample zero-extended in SAMPLE_OUT, and the beat. -/
theorem test_engEmit :
    let t := { s0 with nodes := s0.nodes.set 1 { ins := [0, 0, 0], outs := [0x8000], body := .vca } }
    after (exec .engEmit t) (fun u => (u.sampleOut, u.outStream, u.beatIndex)) =
      some (0x00008000, [0x8000], 15) := by decide

/-- V-ENG-1, last row: an output that names an input port is accepted and resolves to the null port. -/
theorem test_engValidate_null_output :
    let c := { cfg with output := { node := "osc", port := "freq" } }
    after (exec .engValidate { s0 with cfg := c }) (fun t => (t.graph.outNode, t.graph.outPort)) = some (1, none) := by
  decide

/-- V-ENG-1: rejections, each with its reason. -/
theorem test_engValidate_rejects :
    refusal (exec .engValidate { s0 with cfg := { cfg with tickPeriod := 0 } }) = some (.rejected .badTickPeriod) ∧
    refusal (exec .engValidate { s0 with cfg := { cfg with output := { node := "z", port := "out" } } }) =
      some (.rejected .unresolvedOutput) := by decide

/-! ### HOST and SINK (95 section 2.14) -/

/-- One access on s0. -/
def host (wr : Bool) (width addr : Nat) (data : BitVec 64) (s : State) : Host.Outcome State Fault Refusal :=
  runEvent (.access { write := wr, width := width, addr := addr, data := data, age := 0 }) s

theorem test_host_reads :
    ([0x10, 0x04, 0x00, 0x14, 0x3C].map fun a => after (host false 32 a 0 s0) (·.busData)) =
      [some 5, some 15, some 0, some 0, some 0] := by decide

theorem test_host_push_and_status :
    after (host true 64 0x20 7 s0) (fun t => (t.cmdq, statusWord t)) = some ([7], 1) ∧
      statusWord (hostClose s0) = 7 := by decide

theorem test_host_refusals :
    ([host false 32 0x02 0 s0, host true 32 0x20 0 s0, host false 32 0x40 0 s0, host false 8 0x00 0 s0,
        host true 64 0x28 0 s0, host true 64 0x20 0 (hostClose s0)].map refusal) =
      [some .hostAccess, some .hostAccess, some .hostAccess, some .hostAccess, some .hostAccess,
        some .pushClosed] := by decide

/-- R135: a read two values back returns an older one, and what is older still is gone. -/
theorem test_host_window :
    let t := { s0 with seen := { s0.seen with sampleOut := [1, 2, 3] }, sampleOut := 3 }
    (readReg .sampleOut 1 t).busData = 2 ∧ (readReg .sampleOut 1 t).seen.sampleOut = [2, 3] ∧
      (readReg .sampleOut 9 t).busData = 1 := by decide

theorem test_sink :
    after (runEvent .consume { s0 with outStream := [8, 9], sinkPos := 1 }) (fun t => (t.sinkPos, t.sinkData)) =
      some (2, 9) := by decide

/-! ### ROMs (R338 to R340) -/

/-- R338: 2·inc − 1 ≤ 2·440·2^((k − 69)/12)·2^32/44100 ≤ 2·inc + 1, raised to the twelfth power and cleared of
fractions, for every entry. -/
theorem test_inc_rom_rounds :
    (incRomValues.zipIdx.all fun p =>
      decide (((2 * p.1 - 1) * 44100) ^ 12 * 2 ^ 69 ≤ (2 * 440 * 2 ^ 32) ^ 12 * 2 ^ p.2 ∧
        (2 * 440 * 2 ^ 32) ^ 12 * 2 ^ p.2 ≤ ((2 * p.1 + 1) * 44100) ^ 12 * 2 ^ 69)) = true := by decide

/-- R339: odd about the half: the second half is the first with its sign changed. -/
theorem test_sine_symmetry : (sineRomValues.take 128).map (fun v => -v) = sineRomValues.drop 128 := by rfl

/-- R340: the spot values of V-OSC-1 for Saw, Triangle and Square. -/
theorem test_wave_spots :
    ([2, 5, 255].map fun i => ((sawRom 8).getD i 0).toInt) = [-32256, -31488, 32512] ∧
    ([2, 5, 64].map fun i => ((triRom 8).getD i 0).toInt) = [1024, 2560, 32767] ∧
    ([127, 128].map fun i => ((squareRom 8).getD i 0).toInt) = [32767, -32768] := by decide

/-! ### Syntax (R183 to R186) -/

theorem test_assemble :
    assembleWords cfg "SET_OSC n2, 60, 0x2000" = some [0x200200000000003C, 0x2102000000002000] ∧
    assembleWords cfg "SET_ENV_SUSTAIN_AT env, -16384" = some [0x040000000000C000] ∧
    assembleNum "FX.CONV Q8.8, Q8.0" = some .fxConvQ88Q80 := by decide

/-! ### Witnesses: each shows a state and operands that meet the hypotheses of the statement it is named after -/

/-- The invariant holds of s0. -/
theorem witness_inv : Inv s0 where
  accepted := rfl
  legal := by
    refine ⟨by decide, by decide, by decide, by decide, by decide, by decide, sineRom_wf, ?_, ?_, ?_, ?_, incRom_length, ?_⟩
    · exact (computedRoms_wf 8).1
    · exact (computedRoms_wf 8).2.1
    · exact (computedRoms_wf 8).2.2.1
    · exact (computedRoms_wf 8).2.2.2
    · have h : (incRomValues.all fun v => decide (v < 2 ^ 32)) = true := by decide
      intro v hv
      exact of_decide_eq_true (List.all_eq_true.1 h v hv)
  nodes := by
    have h : ∀ nc ∈ cfg.nodes, nodeWf cfg nc (buildNode cfg nc) := by
      intro nc hnc
      have hb : badTaps nc = false := by
        simp only [cfg, resetConfig, List.mem_cons, List.not_mem_nil, or_false] at hnc
        rcases hnc with rfl | rfl | rfl | rfl | rfl | rfl <;> simp [badTaps]
      refine ⟨?_, ?_, ?_, buildNode_bodyWf cfg nc hb⟩ <;>
        (cases hk : nc.kcfg <;> simp [nodeKind, buildNode, initBody, initLatches, hk, kcfgKind])
    exact List.forall₂_map_right_iff.2 (List.forall₂_same.2 h)
  tick := by decide
  buf := by decide
  sample := by decide
  beat := by decide
  err := by decide
  halted := by decide
  sink := by decide
  seen := by intro r; cases r <;> decide

/-- R338: the reference pitch, 440 Hz at note 69, and its octaves, from SAMPLE_RATE and W_PHASE, rounded to the nearest. -/
theorem test_inc_rom_octaves :
    ∀ k ∈ [0, 1, 2, 3, 4], incRomValues[69 + 12 * k]? =
      some ((2 * 440 * 2 ^ k * 2 ^ resetConfig.wPhase + resetConfig.sampleRate) / (2 * resetConfig.sampleRate)) := by
  decide

/-- The schedule is the model's own and does not enter the invariant. -/
theorem witness_inv_agenda (l : List Event) : Inv { s0 with agenda := l } :=
  { witness_inv with seen := witness_inv.seen }

theorem witness_DecodeOfEncodeIsTheInstruction :
    (Instr.fxRecip .q32_0).wf = true ∧ (Instr.fxConv .q8_8 .q1_31).wf = true ∧ (Instr.setPattern 255 16 true).wf = true := by
  decide

theorem witness_DecodedItemIsTheEncoding :
    decode (.num 0x24500000) = .ok (.fxConv .q8_8 .q1_31) ∧ decode (.cmd 0x1103FF000000FFFF) = .ok (.setGatelen 3 255 0xFFFF) ∧
      decode (.disp 0x61) = .ok .revTick := by decide

/-- The lowest and the highest bit of each mask, and an opcode beside an assigned one. -/
theorem witness_UndecodableCommandSetsOneBit :
    ((0x0600000000000000 : CmdWord).extractLsb' 56 8).toNat ∉ [0x01, 0x02, 0x03, 0x04, 0x05, 0x10, 0x11, 0x20, 0x21, 0x30] ∧
    ([0x0500000000010000, 0x2100800000000000].all fun w : CmdWord =>
      decide ((w.extractLsb' 56 8).toNat ∈ [0x01, 0x02, 0x03, 0x04, 0x05, 0x20, 0x21] ∧ w &&& 0x0000FFFFFFFF0000 ≠ 0)) = true ∧
    ([0x1000000000000002, 0x1000008000000000].all fun w : CmdWord =>
      decide ((w.extractLsb' 56 8).toNat = 0x10 ∧ w &&& 0x000000FFFFFFFFFE ≠ 0)) = true ∧
    ([0x1100000000010000, 0x1100008000000000].all fun w : CmdWord =>
      decide ((w.extractLsb' 56 8).toNat = 0x11 ∧ w &&& 0x000000FFFFFF0000 ≠ 0)) = true ∧
    ([0x3000000100000000, 0x3000800000000000].all fun w : CmdWord =>
      decide ((w.extractLsb' 56 8).toNat = 0x30 ∧ w &&& 0x0000FFFF00000000 ≠ 0)) = true := by decide

/-- One descriptor for each clause, and the codes beside the assigned ones. -/
theorem witness_ReservedCodesAreRefused :
    ([0x05, 0x0F, 0x12, 0x62, 0xFF].all fun c : BitVec 8 => decide (c.toNat ∉ [0x00, 0x01, 0x02, 0x03, 0x04, 0x10, 0x11,
      0x20, 0x21, 0x30, 0x31, 0x40, 0x41, 0x50, 0x51, 0x60, 0x61])) = true ∧
    ([0x50000000, 0x08000000, 0x10800000, 0x00000001, 0x37600000, 0x27700000, 0x46000000, 0x01100000, 0x47100000].map
      fun d : BitVec 32 => ((d.extractLsb' 28 4).toNat, (d.extractLsb' 24 4).toNat, (d.extractLsb' 20 4).toNat,
        (d.extractLsb' 0 20).toNat)) =
      [(5, 0, 0, 0), (0, 8, 0, 0), (1, 0, 8, 0), (0, 0, 0, 1), (3, 7, 6, 0), (2, 7, 7, 0), (4, 6, 0, 0), (0, 1, 1, 0),
        (4, 7, 1, 0)] ∧
    (Instr.fxSadd .q1_7 .q8_0).wf = false := by decide

theorem witness_StepRunsTheDecodedInstruction :
    ({ s0 with agenda := [.issue (.disp 0x10) s0.opr, .close] } : State).run = true ∧
      decode (.disp 0x10) = .ok .envStep ∧ decodeTableWord 64 0x2002000000000045 = some (.setOscFreq 2 69) := by decide

theorem witness_EveryStepKeepsTheInvariant :
    Inv { s0 with agenda := [.close] } ∧
      step { s0 with agenda := [.close] } = .next (publish { s0 with closed := true }) := ⟨witness_inv_agenda _, rfl⟩

theorem witness_ResetBuildsTheStateOfTheConfiguration :
    validate cfg = .ok (graphOf cfg) ∧ validate { cfg with tickPeriod := 0 } = .error .badTickPeriod ∧
    (cfg.nodes.map fun nc => kcfgKind nc.kcfg) = [.env, .osc, .seq, .vca, .mix, .rev] ∧
    s0.nodes.length = cfg.nodes.length := ⟨rfl, by rfl, by decide, by decide⟩

/-- s0's first six nodes are of the six kinds: the targets and operands of the statements about one instruction. -/
theorem witness_kinds : s0.nodes.map nodeKind = [.env, .osc, .seq, .vca, .mix, .rev] := by decide

theorem witness_LatchCommandWritesItsLatch :
    (s0.nodes[(0 : BitVec 8).toNat]?).map nodeKind = some .env ∧ (s0.nodes[(1 : BitVec 8).toNat]?).map nodeKind = some .osc := by
  decide

theorem witness_SeqCommandWritesItsEntry :
    (onNode 2 (seq 0 0 false false)).nodes[(2 : BitVec 8).toNat]? = some (seq 0 0 false false) ∧
      (0 : BitVec 8).toNat ≤ 15 ∧ (15 : BitVec 8).toNat ≤ 15 := by decide

/-- The three answers: a failure, a list as long as the table and one entry longer, and a free draw. -/
theorem witness_LoadWaveCopiesTheAnswer :
    ∃ n o, s0.nodes[(1 : BitVec 8).toNat]? = some n ∧ n.body = .osc o ∧ o.custom.length = 2 ^ s0.cfg.tableBits ∧
      (∃ rest, ({ s0 with wsrcAnswers := [.fail] } : State).wsrcAnswers = .fail :: rest) ∧
      (∃ rest, ({ s0 with wsrcAnswers := [.samples (List.replicate 257 1)] } : State).wsrcAnswers =
        .samples (List.replicate 257 1) :: rest) ∧ s0.wsrcAnswers = [] :=
  ⟨_, _, rfl, rfl, List.length_replicate, ⟨_, rfl⟩, ⟨_, rfl⟩, rfl⟩

/-- No node at 6, a node of another kind at 1, and ELEM 16 on the SEQ node. -/
theorem witness_CommandChecksSetOneBit :
    s0.nodes[(6 : BitVec 8).toNat]? = none ∧ (s0.nodes[(1 : BitVec 8).toNat]?).map nodeKind = some .osc ∧
      (s0.nodes[(2 : BitVec 8).toNat]?).map nodeKind = some .seq ∧ 15 < (16 : BitVec 8).toNat := by decide

theorem witness_CommandsButLoadAreIdempotent :
    ((0x3100000000000000 : CmdWord).extractLsb' 56 8).toNat ≠ 0x30 ∧
      ((0x2F00000000000000 : CmdWord).extractLsb' 56 8).toNat ≠ 0x30 := by decide

theorem witness_DrainAppliesTheQueueInOrder :
    s0.cmdq = [] ∧ ({ s0 with cmdq := [1, 2] } : State).cmdq = 1 :: [2] := by decide

theorem witness_PatternMaskWritesThePattern :
    (onNode 2 (seq 0 0 false false)).nodes[(2 : BitVec 8).toNat]? = some (seq 0 0 false false) := by decide

/-- A node word of each form, at the last index, and numbers of each form at the ends of the operands' ranges. -/
theorem witness_AssembledWordsDecodeToTheLine :
    Claims.NodeWord cfg "osc" 1 ∧ Claims.NodeWord cfg "n255" 255 ∧
    (Claims.Spells "0" 0 ∧ Claims.Spells "1" 1 ∧ Claims.Spells "255" 255 ∧ Claims.Spells "65535" 65535 ∧
      Claims.Spells "-32768" (-32768) ∧ Claims.Spells "0xFFFFffff" 4294967295) := by
  refine ⟨⟨by decide, by simp, .inl ⟨_, rfl, rfl, ?_⟩⟩, ⟨by decide, by simp, .inr ⟨?_, ['2', '5', '5'], by simp,
    by decide, [2, 5, 5], by decide, by simp⟩⟩, ?_, ?_, ?_, ?_, ?_, ?_⟩
  · intro j hj nc h
    have hz : j = 0 := by simp at hj; omega
    subst hz
    cases h
    decide
  · intro nc h
    simp only [cfg, resetConfig, List.mem_cons, List.not_mem_nil, or_false] at h
    rcases h with rfl | rfl | rfl | rfl | rfl | rfl <;> simp
  · exact .inl ⟨0, ⟨by decide, [0], by decide, by simp⟩, rfl⟩
  · exact .inl ⟨1, ⟨by decide, [1], by decide, by simp⟩, rfl⟩
  · exact .inl ⟨255, ⟨by decide, [2, 5, 5], by decide, by simp⟩, rfl⟩
  · exact .inl ⟨65535, ⟨by decide, [6, 5, 5, 3, 5], by decide, by simp⟩, rfl⟩
  · exact .inr (.inl ⟨['3', '2', '7', '6', '8'], 32768, by simp, ⟨by decide, [3, 2, 7, 6, 8], by decide, by simp⟩, rfl⟩)
  · exact .inr (.inr ⟨['F', 'F', 'F', 'F', 'f', 'f', 'f', 'f'], 4294967295, by simp,
      ⟨by decide, [15, 15, 15, 15, 15, 15, 15, 15], by decide, by simp⟩, rfl⟩)

/-- R184: the expansion of SET_ENV_ADSR. -/
theorem test_assemble_adsr :
    assembleLine cfg "SET_ENV_ADSR n0, 2, 0x7FFF, 2, 0x4000, 65535" =
      some [.setEnvAttackFor 0 2, .setEnvAttackTo 0 0x7FFF, .setEnvDecayFor 0 2, .setEnvSustainAt 0 0x4000,
        .setEnvReleaseFor 0 0xFFFF] := by decide

/-- The ends of FX.RAW's exact range in Q1.7. -/
theorem witness_FxRawWrapsTheInteger :
    -(2 ^ (fmtWidth .q1_7 - 1)) ≤ (onOps (-128) 0 0).opr.k ∧ (onOps 127 0 0).opr.k < 2 ^ (fmtWidth .q1_7 - 1) := by decide

/-- Both directions of the shift, and equal fraction bits. -/
theorem witness_FxConvAlignsThePoint :
    (Instr.fxConv .q1_15 .q1_31).wf = true ∧ fmtFrac .q1_15 ≤ fmtFrac .q1_31 ∧
    (Instr.fxConv .q1_15 .q16_15).wf = true ∧ fmtFrac .q1_15 ≤ fmtFrac .q16_15 ∧
    (Instr.fxConv .q8_8 .q1_7).wf = false ∧ (Instr.fxConv .q8_8 .q16_0).wf = true ∧ fmtFrac .q16_0 < fmtFrac .q8_8 := by
  decide

/-- The operands 0, 1, −1 and the most negative number. -/
theorem witness_FxRecipIsTheFlooredReciprocal :
    Fmt.q8_0 ∈ [Fmt.q8_0, .q16_0, .q32_0] ∧
    ([0x00, 0x01, 0xFF, 0x80].map fun a : BitVec 32 => (a.setWidth (fmtWidth .q8_0)).toInt) = [0, 1, -1, -128] := by decide

/-- An ENV node on the operand port. -/
theorem onEnv (n : Node) (e : EnvSt) (h : n.body = .env e) : Claims.OnEnv (onNode 0 n) n e := ⟨rfl, h⟩

theorem witness_EnvStepInOff : ∃ e, Claims.OnEnv (onNode 0 (env 0x6001 0 0 .off 0 true false))
    (env 0x6001 0 0 .off 0 true false) e ∧ e.state = .off := ⟨_, onEnv _ _ rfl, rfl⟩

/-- The trigger level just above T_HIGH. -/
theorem witness_EnvTriggerOutsideOffHolds : ∃ e, Claims.OnEnv (onNode 0 (env 0x6001 0 0 .release 0 true false))
    (env 0x6001 0 0 .release 0 true false) e ∧ e.state ≠ .off ∧
    (onNode 0 (env 0x6001 0 0 .release 0 true false)).cfg.retrig = .hold ∧
    Claims.Triggered (env 0x6001 0 0 .release 0 true false) e := ⟨_, onEnv _ _ rfl, by decide, rfl, by decide⟩

/-- Each state the gate is lost in, with the gate level just below T_LOW. -/
theorem witness_EnvGateLossReleases : ∀ st ∈ [EnvState.attack, .decay, .sustain],
    ∃ e, Claims.OnEnv (onNode 0 (env 0x6000 0x1FFF 0 st 0 true true)) (env 0x6000 0x1FFF 0 st 0 true true) e ∧
      e.state = st ∧ ¬ Claims.Triggered (env 0x6000 0x1FFF 0 st 0 true true) e ∧
      Claims.gateNow (env 0x6000 0x1FFF 0 st 0 true true) e = false := by
  intro st hst
  simp only [List.mem_cons, List.not_mem_nil, or_false] at hst
  rcases hst with rfl | rfl | rfl <;> exact ⟨_, onEnv _ _ rfl, rfl, by decide, by decide⟩

/-- Attack with attack_for 4: the last counter before the end, and the one at it. -/
theorem witness_EnvStepInAttack : ∀ c ∈ [(2 : BitVec 16), 3],
    ∃ e, Claims.OnEnv (onNode 0 (env 0 0x6001 0 .attack c true false)) (env 0 0x6001 0 .attack c true false) e ∧
      e.state = .attack ∧ ¬ Claims.Triggered (env 0 0x6001 0 .attack c true false) e ∧
      Claims.gateNow (env 0 0x6001 0 .attack c true false) e = true ∧ e.counter = c := by
  intro c hc
  simp only [List.mem_cons, List.not_mem_nil, or_false] at hc
  rcases hc with rfl | rfl <;> exact ⟨_, onEnv _ _ rfl, rfl, by decide, by decide, rfl⟩

/-- Decay with decay_for 4: the last counter before the end, and the one at it. -/
theorem witness_EnvStepInDecay : ∀ c ∈ [(2 : BitVec 16), 3],
    ∃ e, Claims.OnEnv (onNode 0 (env 0 0x6001 0 .decay c true false)) (env 0 0x6001 0 .decay c true false) e ∧
      e.state = .decay ∧ ¬ Claims.Triggered (env 0 0x6001 0 .decay c true false) e ∧
      Claims.gateNow (env 0 0x6001 0 .decay c true false) e = true ∧ e.counter = c := by
  intro c hc
  simp only [List.mem_cons, List.not_mem_nil, or_false] at hc
  rcases hc with rfl | rfl <;> exact ⟨_, onEnv _ _ rfl, rfl, by decide, by decide, rfl⟩

/-- Sustain, with the gate held open between the thresholds. -/
theorem witness_EnvStepInSustain :
    ∃ e, Claims.OnEnv (onNode 0 (env 0 0x2000 0 .sustain 0 true true)) (env 0 0x2000 0 .sustain 0 true true) e ∧
      e.state = .sustain ∧ ¬ Claims.Triggered (env 0 0x2000 0 .sustain 0 true true) e ∧
      Claims.gateNow (env 0 0x2000 0 .sustain 0 true true) e = true := ⟨_, onEnv _ _ rfl, rfl, by decide, by decide⟩

/-- Release with release_for 4: the last counter before the end, and the one at it. -/
theorem witness_EnvStepInRelease : ∀ c ∈ [(2 : BitVec 16), 3],
    ∃ e, Claims.OnEnv (onNode 0 (env 0 0x7FFF 0 .release c true false)) (env 0 0x7FFF 0 .release c true false) e ∧
      e.state = .release ∧ ¬ Claims.Triggered (env 0 0x7FFF 0 .release c true false) e ∧ e.counter = c := by
  intro c hc
  simp only [List.mem_cons, List.not_mem_nil, or_false] at hc
  rcases hc with rfl | rfl <;> exact ⟨_, onEnv _ _ rfl, rfl, by decide, rfl⟩

theorem witness_EnvAttackRampIsLinear :
    cfg.rampDiv = .tdiv ∧ (env 0x6000 0x6001 0 .attack 0 true true).outs.length = 1 ∧
    24576 < ((env 0x6000 0x6001 0 .attack 0 true true).ins.getD 6 0).toInt ∧
    ((env 0x6000 0x6001 0 .attack 0 true true).ins.getD 5 0).toInt ≤ 24576 ∧
    1 ≤ ((env 0x6000 0x6001 0 .attack 0 true true).ins.getD 0 0).toNat := by decide

/-- The notes at both ends of the clamp. -/
theorem witness_OscStepAdvancesThenReads :
    (onNode 1 (osc 0xFFFF 0 0 0 .saw [])).nodes[1]? = some (osc 0xFFFF 0 0 0 .saw []) ∧
    s0.cfg.roms.inc[(max 0 (min 127 (0xFFFF : Word).toInt)).toNat]? = some 796254 ∧
    s0.cfg.roms.inc[(max 0 (min 127 (0x0080 : Word).toInt)).toNat]? = some 1221665363 := by decide

theorem witness_OscPhaseAfterManySteps :
    (osc 69 5 0 0xFFFFFFFF .saw []).ins.getD 2 0 = 0 ∧ 0xFFFFFFFF < 2 ^ cfg.wPhase := by decide

/-- An active and an inactive step on either side of the tick and of the STEP. -/
theorem witness_SeqTickAdvancesTheBeat :
    ([(15 : BitVec 4), 1].map fun b => (onNode 2 (seq b 0 false false)).nodes[2]?) =
      [some (seq 15 0 false false), some (seq 1 0 false false)] ∧
    (0x000B : BitVec 16).getLsbD 0 = true ∧ (0x000B : BitVec 16).getLsbD 2 = false := by decide

theorem witness_SeqStepTimesTheGate :
    (onNode 2 (seq 3 0xFFFF true true)).nodes[2]? = some (seq 3 0xFFFF true true) ∧
    (onNode 2 (seq 2 0 true true)).nodes[2]? = some (seq 2 0 true true) ∧
    (0x000B : BitVec 16).getLsbD 3 = true ∧ (0x000B : BitVec 16).getLsbD 2 = false := by decide

/-- The first and the last m. -/
theorem witness_SeqGateIsHeldForItsLength :
    (seq 0 0 true true).outs.length = 2 ∧ (0x000B : BitVec 16).getLsbD 0 = true ∧ 1 ≤ 1 ∧ 65535 < 65536 := by decide

/-- Both settings of VCA_NARROW. -/
theorem witness_VcaStepMultiplies :
    (s0.nodes[3]?).map nodeKind = some .vca ∧ s0.cfg.narrow = .wrap ∧
      ({ s0 with cfg := { cfg with narrow := .sat } } : State).cfg.narrow = .sat := by decide

/-- The ends of the range of amp_cv. -/
theorem witness_VcaNeverAmplifies : 0 ≤ (0 : Word).toInt ∧ 0 ≤ (0x7FFF : Word).toInt := by decide

theorem witness_MixStepSaturatesTheSum : (s0.nodes[4]?).map nodeKind = some .mix := by decide

theorem witness_RevStepRunsEveryTap :
    ∃ (n : Node) (nc : NodeCfg) (tcs : List TapCfg) (ts : List TapSt),
      ({ s0 with opr := { s0.opr with node := 5 } } : State).nodes[5]? = some n ∧ n.body = .rev ts ∧
        s0.cfg.nodes[5]? = some nc ∧ nc.kcfg = .rev tcs ∧ tcs.length = ts.length :=
  ⟨_, _, _, _, rfl, rfl, rfl, rfl, rfl⟩

/-- The shortest tap, and one at its last position. -/
theorem witness_RevTapDelaysByItsLength :
    tapWf { len := 1, gain := 0x8000 } { buf := [7], pos := 0 } ∧ ([] : List Int).length + 1 = 1 ∧
    tapWf { len := 3, gain := 0x7FFF } { buf := [7, 8, 9], pos := 2 } ∧ [(0 : Int), 5].length + 1 = 3 := by
  refine ⟨⟨rfl, by decide⟩, rfl, ⟨rfl, by decide⟩, rfl⟩

/-- A configuration for every reason of R440, and an accepted one. -/
theorem witness_ValidateChecksInOrder :
    let nd : String → NodeCfg := fun x => { name := x, kcfg := .vca, initIn := [] }
    let wire : String → String → WireCfg := fun a b => { src := { node := a, port := "out" }, dst := { node := b, port := "in" } }
    (validate { cfg with nodes := [nd "a", nd "a"] } = .error .duplicateName) ∧
    (validate { cfg with wires := [wire "env" "vca", wire "x" "y"] } = .error .unresolvedWireSource) ∧
    (validate { cfg with wires := [wire "env" "vca", wire "env" "y"] } = .error .unresolvedWireDest) ∧
    (validate { cfg with output := { node := "z", port := "out" } } = .error .unresolvedOutput) ∧
    (validate { cfg with tickPeriod := 0 } = .error .badTickPeriod) ∧
    (validate { cfg with nodes := cfg.nodes ++ [{ name := "r", kcfg := .rev [], initIn := [] }] } = .error .badTaps) ∧
    (validate { cfg with nodes := cfg.nodes ++ [{ name := "r", kcfg := .rev [{ len := 0, gain := 0 }], initIn := [] }] } =
      .error .badTaps) ∧
    (validate { cfg with nodes := cfg.nodes ++ [{ name := "o", kcfg := .osc (.unknown "Pulse"), initIn := [] }] } =
      .error .badKcfg) ∧
    (validate { cfg with nodes := List.replicate 257 (nd "a") } = .error .tooManyNodes) ∧
    validate cfg = .ok (graphOf cfg) := by
  refine ⟨by decide, by decide, by decide, by decide, by decide, by decide, by decide, by decide, ?_, rfl⟩
  exact if_pos (lt_of_lt_of_eq (by omega : 256 < 257) List.length_replicate.symm)

/-- A node on the operand port, a node of another kind, and none. -/
theorem witness_EngineStepsEachNodeByItsInstruction :
    (∀ i, i < 6 → (s0.nodes[i]?).isSome = true) ∧ (s0.nodes[1]?).map nodeKind = some .osc ∧ s0.nodes[6]? = none := by
  decide

theorem witness_IterationRunsItsPhasesInOrder :
    s0.run = true ∧ s0.closed = false ∧ ({ s0 with closed := true } : State).closed = true ∧
      ({ s0 with run := false } : State).run = false := by decide

theorem witness_EmitAppendsOneSample :
    (s0.nodes[s0.graph.outNode]?).map nodeKind = some .osc ∧ s0.graph.outPort = some 0 := by decide

theorem witness_TickFiresEveryPeriod :
    s0.run = true ∧ s0.closed = false ∧ s0.tickCtr = 0 ∧ s0.cfg.tickPeriod ≠ 0 := by decide

theorem witness_NodeOrderDoesNotMatter : ([1, 0] : List Nat).Perm (List.range ([s0.nodes.length, 2].getLast (by simp))) := by
  decide

theorem witness_SessionNeverGoesBack :
    step { s0 with closed := true, run := false } = .next (publish { s0 with closed := true, run := false }) := rfl

/-- s0 halted, as R482 leaves it. -/
def halted : State := { s0 with run := false, closed := true, seen := (publish { s0 with run := false, closed := true }).seen }

theorem witness_HaltedKeepsEveryRegister :
    halted.run = false ∧ step halted = .next (publish halted) ∧ Inv halted :=
  ⟨rfl, rfl, { witness_inv with halted := fun _ => ⟨rfl, rfl⟩, seen := by intro r; cases r <;> decide }⟩

/-- A state of the invariant and a register of the list, at its first and at its last offset (STATUS is 5 at reset). -/
theorem witness_HostReadReturnsTheRegister :
    Inv s0 ∧
    ∀ x ∈ [(0x00, HostReg.sampleOut, (0 : HostWord)), (0x10, .status, 5)],
      x ∈ [(0x00, HostReg.sampleOut, s0.sampleOut), (0x04, .beatIndex, s0.beatIndex),
        (0x08, .execTime, s0.execTime), (0x0C, .err, s0.err),
        (0x10, .status, (if s0.run then 1 else 0) + (if s0.closed then 2 else 0) + (if s0.cmdq = [] then 4 else 0))] :=
  ⟨witness_inv, by decide⟩

/-- A window of two values, read at the age 1, at an age that reaches past it, and at the age 0. -/
theorem witness_HostReadsNeverGoBack :
    let s : State := { s0 with err := 4, seen := { s0.seen with err := [0, 4] } }
    (∀ age, Claims.Reads s { write := false, width := 32, addr := s.cfg.hostBase + 0x0C, data := 0, age := age } .err) ∧
    window s.seen .err = [] ++ 0 :: [4] ∧ ([4] : List HostWord).length = min 1 (0 + 1) ∧
    ([4] : List HostWord).length = min 9 (0 + 1) ∧
    window s.seen .err = [0] ++ 4 :: [] ∧ ([] : List HostWord).length = min 0 (1 + 0) ∧
    step { s0 with agenda := [.close] } = .next (publish { s0 with closed := true }) :=
  ⟨fun _ => ⟨rfl, rfl, 0x0C, rfl, by simp⟩, rfl, rfl, rfl, rfl, rfl, rfl⟩

theorem witness_PushAppendsUntilTheClose :
    s0.closed = false ∧ ({ s0 with closed := true } : State).closed = true := by decide

/-- Offsets at the ends of each clause's ranges: none falls under two clauses. -/
theorem witness_HostWindowIsDecodedAsListed :
    (∀ off ∈ [0x02, 0x20, 0x24, 0x40], off % 4 ≠ 0 ∨ off = 0x20 ∨ off = 0x24 ∨ 0x40 ≤ off) ∧
    (∀ off ∈ [0x00, 0x1C, 0x28, 0x3C], off % 4 = 0 ∧ off < 0x40 ∧ off ≠ 0x20 ∧ off ≠ 0x24) ∧
    (∀ off ∈ [0x14, 0x1C, 0x28, 0x3C], off % 4 = 0 ∧ 0x14 ≤ off ∧ off < 0x40 ∧ off ≠ 0x20 ∧ off ≠ 0x24) ∧
    ((8 : Nat) ≠ 32 ∧ (8 : Nat) ≠ 64) ∧ (0x28 : Nat) ≠ 0x20 ∧
    (0x0FFF : Nat) < ({ s0 with cfg := { s0.cfg with hostBase := 0x1000 } } : State).cfg.hostBase := by decide

theorem witness_SinkConsumesInOrder :
    ({ s0 with outStream := [8] } : State).outStream[s0.sinkPos]? = some 8 ∧ s0.outStream.length ≤ s0.sinkPos := by decide

end Sys2Proof.Tests
end

section
/-! PROOFS. The state family: what every step keeps (`Inv`), what no step takes back, EXEC_TIME, and SINK. -/

namespace Sys2Proof.Machine

/-! ### The host registers stay in their bits -/

/-- R48: a bit of ERR is one of bits 5..0. -/
theorem errSet_toNat_lt {e : HostWord} (b : ErrBit) (h : e.toNat < 2 ^ 6) : (errSet e b).toNat < 2 ^ 6 := by
  rw [errSet, BitVec.toNat_or]
  exact Nat.or_lt_two_pow h (by cases b <;> decide)

/-- R46: BEAT_INDEX holds a 4-bit number. -/
theorem beatWord_toNat_lt (ns : List Node) : (beatWord ns).toNat < 2 ^ 4 := by
  unfold beatWord
  cases firstSeqBeat ns with
  | none => decide
  | some b =>
    have hb := b.isLt
    simp only [BitVec.toNat_setWidth]
    omega

/-- R45: a sample in a host register leaves its upper half 0. -/
theorem sampleWord_toNat_lt (v : Word) : (v.setWidth 32).toNat < 2 ^ 16 := by
  have hv := v.isLt
  simp only [BitVec.toNat_setWidth]
  omega

/-! ### What `bodyWf` says of each kind -/

theorem bodyWf_env {c : Config} {nc : NodeCfg} {n : Node} {e : EnvSt} (hb : n.body = .env e) : bodyWf c nc n := by
  simp [bodyWf, hb]

theorem bodyWf_vca {c : Config} {nc : NodeCfg} {n : Node} (hb : n.body = .vca) : bodyWf c nc n := by
  simp [bodyWf, hb]

theorem bodyWf_mix {c : Config} {nc : NodeCfg} {n : Node} (hb : n.body = .mix) : bodyWf c nc n := by
  simp [bodyWf, hb]

theorem bodyWf_osc_iff {c : Config} {nc : NodeCfg} {n : Node} {o : OscSt} (hb : n.body = .osc o) :
    bodyWf c nc n ↔ o.phase < 2 ^ c.wPhase ∧ Memory.wf (nTable c) o.custom := by
  simp [bodyWf, hb]

theorem bodyWf_seq_iff {c : Config} {nc : NodeCfg} {n : Node} {q : SeqSt} (hb : n.body = .seq q) :
    bodyWf c nc n ↔ Memory.wf 16 q.gatelen ∧ n.outs = [driveLevel q.gateR, driveLevel q.trigR] := by
  simp [bodyWf, hb]

theorem bodyWf_rev_iff {c : Config} {nc : NodeCfg} {n : Node} {ts : List TapSt} (hb : n.body = .rev ts) :
    bodyWf c nc n ↔ ∃ tcs, nc.kcfg = .rev tcs ∧ List.Forall₂ tapWf tcs ts := by
  cases hk : nc.kcfg <;> simp [bodyWf, hb, hk]

theorem nodeWf.bodyWf {c : Config} {nc : NodeCfg} {n : Node} (h : nodeWf c nc n) : bodyWf c nc n := by
  obtain ⟨-, -, -, hb⟩ := h
  exact hb

/-- R51, R52: a node that keeps its kind and its numbers of ports is well formed when its private fields are. -/
theorem nodeWf_of_bodyWf {c : Config} {nc : NodeCfg} {n m : Node} (h : nodeWf c nc n) (hk : nodeKind m = nodeKind n)
    (hi : m.ins.length = n.ins.length) (ho : m.outs.length = n.outs.length) (hb : bodyWf c nc m) :
    nodeWf c nc m := by
  obtain ⟨hkind, hins, houts, -⟩ := h
  exact ⟨hk.trans hkind, by rw [hi, hk, hins], by rw [ho, hk, houts], hb⟩

/-! ### The operations on one node keep it well formed -/

section NodeOps

variable {c : Config} {nc : NodeCfg} {n : Node}

/-- R261: a latch write leaves outputs and private fields. -/
theorem nodeWf_setIn (p : Nat) (v : Word) (h : nodeWf c nc n) : nodeWf c nc (setIn n p v) :=
  nodeWf_of_bodyWf h rfl (by simp) rfl h.bodyWf

/-- R261: a write through a port reference is a latch write or nothing. -/
theorem nodeWf_writePort (p : PortRef) (v : Word) (h : nodeWf c nc n) : nodeWf c nc (writePort n p v) := by
  cases p with
  | none => exact h
  | some i => exact nodeWf_setIn i v h

/-- R492, R493: a command on a SEQ node leaves its flags, and so its outputs. -/
theorem nodeWf_mapSeq {f : SeqSt → SeqSt} (hlen : ∀ q, (f q).gatelen.length = q.gatelen.length)
    (hgate : ∀ q, (f q).gateR = q.gateR) (htrig : ∀ q, (f q).trigR = q.trigR) (h : nodeWf c nc n) :
    nodeWf c nc (mapSeq f n) := by
  cases hb : n.body with
  | seq q =>
    have hm : mapSeq f n = { n with body := .seq (f q) } := by simp [mapSeq, hb]
    obtain ⟨hg, ho⟩ := (bodyWf_seq_iff hb).1 h.bodyWf
    rw [hm]
    refine nodeWf_of_bodyWf h (by simp [nodeKind, hb]) rfl rfl ((bodyWf_seq_iff rfl).2 ⟨?_, ?_⟩)
    · exact (hlen q).trans hg
    · rw [hgate, htrig]; exact ho
  | _ => simpa [mapSeq, hb] using h

/-- R497: a load leaves the phase, and CUSTOM its size. -/
theorem nodeWf_loadSamples (r : List Word) (h : nodeWf c nc n) : nodeWf c nc (mapOsc (loadSamples c r) n) := by
  cases hb : n.body with
  | osc o =>
    have hm : mapOsc (loadSamples c r) n = { n with body := .osc (loadSamples c r o) } := by simp [mapOsc, hb]
    obtain ⟨hp, hc⟩ := (bodyWf_osc_iff hb).1 h.bodyWf
    rw [hm]
    exact nodeWf_of_bodyWf h (by simp [nodeKind, hb]) rfl rfl
      ((bodyWf_osc_iff (o := loadSamples c r o) rfl).2 ⟨hp, loadSamples_wf r hc⟩)
  | _ => simpa [mapOsc, hb] using h

/-- R54, R335: a phase is reduced modulo 2^W_PHASE. -/
theorem nextPhase_lt (c : Config) (n : Node) (phase : Nat) : nextPhase c n phase < 2 ^ c.wPhase := by
  have hpos : (0 : Int) < 2 ^ c.wPhase := by positivity
  unfold nextPhase
  rw [Int.toNat_lt (Int.emod_nonneg _ hpos.ne')]
  exact_mod_cast Int.emod_lt_of_pos _ hpos

theorem nodeWf_envStepNode {e : EnvSt} (hb : n.body = .env e) (h : nodeWf c nc n) :
    nodeWf c nc (envStepNode c n e) :=
  nodeWf_of_bodyWf h (by simp [envStepNode, nodeKind, hb]) rfl (by simp [envStepNode]) (bodyWf_env rfl)

theorem nodeWf_oscStepNode {o : OscSt} (hb : n.body = .osc o) (h : nodeWf c nc n) :
    nodeWf c nc (oscStepNode c n o) :=
  nodeWf_of_bodyWf h (by simp [oscStepNode, nodeKind, hb]) rfl (by simp [oscStepNode])
    ((bodyWf_osc_iff (o := { o with phase := nextPhase c n o.phase }) rfl).2
      ⟨nextPhase_lt c n o.phase, ((bodyWf_osc_iff hb).1 h.bodyWf).2⟩)

/-- R373: DRIVE puts the flags on both outputs. -/
theorem drive_outs {q : SeqSt} (q' : SeqSt) (hb : n.body = .seq q) (h : nodeWf c nc n) :
    (drive n q').outs = [driveLevel q'.gateR, driveLevel q'.trigR] := by
  obtain ⟨-, ho⟩ := (bodyWf_seq_iff hb).1 h.bodyWf
  simp [drive, ho, pOut, pSeqTrigger]

theorem nodeWf_drive {q q' : SeqSt} (hb : n.body = .seq q) (hg : q'.gatelen = q.gatelen) (h : nodeWf c nc n) :
    nodeWf c nc (drive n q') := by
  refine nodeWf_of_bodyWf h (by simp [drive, nodeKind, hb]) rfl (by simp [drive])
    ((bodyWf_seq_iff rfl).2 ⟨?_, drive_outs q' hb h⟩)
  rw [hg]
  exact ((bodyWf_seq_iff hb).1 h.bodyWf).1

/-- R371: a SEQ.TICK leaves GATELEN. -/
theorem seqTickSt_gatelen (q : SeqSt) : (seqTickSt q).gatelen = q.gatelen := by
  unfold seqTickSt; dsimp only; split <;> rfl

/-- R372: a SEQ.STEP leaves GATELEN. -/
theorem seqStepSt_gatelen (q : SeqSt) : (seqStepSt q).gatelen = q.gatelen := by
  unfold seqStepSt; split <;> rfl

theorem nodeWf_vcaStepNode (hb : n.body = .vca) (h : nodeWf c nc n) : nodeWf c nc (vcaStepNode c n) :=
  nodeWf_of_bodyWf h rfl rfl (by simp [vcaStepNode]) (bodyWf_vca hb)

theorem nodeWf_mixStepNode (hb : n.body = .mix) (h : nodeWf c nc n) : nodeWf c nc (mixStepNode n) :=
  nodeWf_of_bodyWf h rfl rfl (by simp [mixStepNode]) (bodyWf_mix hb)

/-- R404, R405: the loop over the taps keeps the size and the position of each. -/
theorem revTaps_tapWf (x : Int) {tcs : List TapCfg} {ts : List TapSt} (h : List.Forall₂ tapWf tcs ts) :
    List.Forall₂ tapWf tcs (revTaps x tcs ts).2 := by
  induction h with
  | nil => exact .nil
  | cons ht _ ih => exact .cons (tapNext_wf x _ _ ht.1 ht.2) ih

theorem nodeWf_revStepNode {tcs : List TapCfg} {ts : List TapSt} (hb : n.body = .rev ts) (hk : nc.kcfg = .rev tcs)
    (h : nodeWf c nc n) : nodeWf c nc (revStepNode tcs n ts) := by
  obtain ⟨tcs', hk', ht⟩ := (bodyWf_rev_iff hb).1 h.bodyWf
  obtain rfl : tcs = tcs' := by simpa [hk] using hk'
  exact nodeWf_of_bodyWf h (by simp [revStepNode, nodeKind, hb]) rfl (by simp [revStepNode])
    ((bodyWf_rev_iff rfl).2 ⟨tcs, hk, revTaps_tapWf _ ht⟩)

/-- R58: the taps of a configured REV node. -/
theorem tapsOf_rev {i : Nat} {tcs : List TapCfg} (hi : c.nodes[i]? = some nc) (hk : nc.kcfg = .rev tcs) :
    tapsOf c i = tcs := by
  simp [tapsOf, hi, hk]

/-- R450 (b): the STEP of a node's kind keeps the node well formed. -/
theorem nodeWf_stepNode {i : Nat} (hi : c.nodes[i]? = some nc) (h : nodeWf c nc n) : nodeWf c nc (stepNode c i n) := by
  cases hb : n.body with
  | env e => simpa [stepNode, hb] using nodeWf_envStepNode hb h
  | osc o => simpa [stepNode, hb] using nodeWf_oscStepNode hb h
  | seq q => simpa [stepNode, seqStepNode, hb] using nodeWf_drive hb (seqStepSt_gatelen q) h
  | vca => simpa [stepNode, hb] using nodeWf_vcaStepNode hb h
  | mix => simpa [stepNode, hb] using nodeWf_mixStepNode hb h
  | rev ts =>
    obtain ⟨tcs, hk, -⟩ := (bodyWf_rev_iff hb).1 h.bodyWf
    simpa [stepNode, hb, tapsOf_rev hi hk] using nodeWf_revStepNode hb hk h

/-- R371: the TICK of a SEQ node. -/
theorem tickNode_seq {q : SeqSt} (hb : n.body = .seq q) : tickNode n = drive n (seqTickSt q) := by
  simp [tickNode, seqTickNode, hb]

/-- R264: the TICK of any other node leaves it. -/
theorem tickNode_of_ne_seq (hk : nodeKind n ≠ .seq) : tickNode n = n := by
  cases hb : n.body with
  | seq q => exact absurd (by simp [nodeKind, hb]) hk
  | _ => simp [tickNode, hb, envTickNode, oscTickNode, vcaTickNode, mixTickNode, revTickNode]

/-- R450 (c): the TICK of a node's kind keeps the node well formed. -/
theorem nodeWf_tickNode (h : nodeWf c nc n) : nodeWf c nc (tickNode n) := by
  cases hb : n.body with
  | seq q => rw [tickNode_seq hb]; exact nodeWf_drive hb (seqTickSt_gatelen q) h
  | _ => rwa [tickNode_of_ne_seq (by simp [nodeKind, hb])]

end NodeOps

/-! ### The node list -/

/-- R51: one well-formed node per entry of NODES, in the same order. -/
abbrev nodesWf (c : Config) (ns : List Node) : Prop := List.Forall₂ (nodeWf c) c.nodes ns

/-- Two lists stay related when an entry of the second becomes another that is related to the same partner. -/
theorem forall₂_modify {α β : Type} {R : α → β → Prop} {f : β → β} {l₁ : List α} {l₂ : List β}
    (h : List.Forall₂ R l₁ l₂) (i : Nat) (hf : ∀ a b, l₁[i]? = some a → l₂[i]? = some b → R a b → R a (f b)) :
    List.Forall₂ R l₁ (l₂.modify i f) := by
  induction h generalizing i with
  | nil => simp
  | cons hab hl ih =>
    cases i with
    | zero => exact .cons (hf _ _ rfl rfl hab) hl
    | succ i => exact .cons hab (ih i fun a b ha hb => hf a b (by simpa using ha) (by simpa using hb))

/-- R17: node i replaced by a node that is well formed where it was. -/
theorem nodesWf_set {c : Config} {ns : List Node} {i : Nat} {n m : Node} (h : nodesWf c ns) (hn : ns[i]? = some n)
    (hm : ∀ nc, c.nodes[i]? = some nc → nodeWf c nc n → nodeWf c nc m) : nodesWf c (ns.set i m) := by
  rw [List.set_eq_modify]
  refine forall₂_modify h i fun nc b hnc hb hw => hm nc hnc ?_
  obtain rfl : b = n := by simpa [hn] using hb.symm
  exact hw

/-- R450 (b): the STEPs of the nodes, in any order. -/
theorem nodesWf_stepNodes {c : Config} (order : List Nat) {ns : List Node} (h : nodesWf c ns) :
    nodesWf c (stepNodes c order ns) := by
  unfold stepNodes
  induction order generalizing ns with
  | nil => exact h
  | cons i is ih => exact ih (forall₂_modify h i fun _ _ hi _ hw => nodeWf_stepNode hi hw)

/-- R450 (c): the TICKs of the nodes, in any order. -/
theorem nodesWf_tickNodes {c : Config} (order : List Nat) {ns : List Node} (h : nodesWf c ns) :
    nodesWf c (tickNodes order ns) := by
  unfold tickNodes
  induction order generalizing ns with
  | nil => exact h
  | cons i is ih => exact ih (forall₂_modify h i fun _ _ _ _ hw => nodeWf_tickNode hw)

/-- R453: a wire writes a latch of its destination, or nothing. -/
theorem nodesWf_propagateWires {c : Config} (ws : List RWire) {ns : List Node} (h : nodesWf c ns) :
    nodesWf c (ws.foldl propagateWire ns) := by
  induction ws generalizing ns with
  | nil => exact h
  | cons w ws ih => exact ih (forall₂_modify h w.dst fun _ _ _ _ hw => nodeWf_writePort _ _ hw)

/-! ### The drain -/

@[simp] theorem drain_cmdq (s : State) : (drain s).cmdq = [] := by
  obtain ⟨ns, e, a, d, hd⟩ := drain_frame s
  rw [hd]

@[simp] theorem drain_closed (s : State) : (drain s).closed = s.closed := by
  obtain ⟨ns, e, a, d, hd⟩ := drain_frame s
  rw [hd]

@[simp] theorem drain_run (s : State) : (drain s).run = if s.closed then false else s.run := by
  obtain ⟨ns, e, a, d, hd⟩ := drain_frame s
  rw [hd]

/-! ### Every operation leaves a good state

An agent's action runs before the host registers are seen (R135), so between the two the windows may lag behind the
registers. The notion that every operation keeps is therefore `Inv` of the state once it is published. -/

/-- The invariant holds once the host registers are seen. -/
abbrev Good (s : State) : Prop := Inv (publish s)

/-- R135: once the registers are seen, the youngest value of every window is the present one. -/
theorem publish_seen_youngest (s : State) (r : HostReg) :
    (window (publish s).seen r).getLast? = some (hostReg (publish s) r) := by
  rw [window_publish, hostReg_publish, getLast?_see]

/-- A state of the invariant is good: publishing adds nothing the invariant does not ask for. -/
theorem Inv.good {s : State} (h : Inv s) : Good s := { h with seen := publish_seen_youngest s }

namespace Good

variable {s : State}

/-- The answers of WSRC and the number of draws are no part of the invariant. -/
theorem takeAnswer (h : Good s) : Good (takeAnswer s) := by
  obtain ⟨a, d, ht⟩ := takeAnswer_frame s
  rw [ht]
  exact { h with seen := publish_seen_youngest _ }

theorem setErr (b : ErrBit) (h : Good s) : Good (setErr b s) :=
  { h with err := errSet_toNat_lt b h.err, seen := publish_seen_youngest _ }

theorem raiseFault (r : Fault) (h : Good s) : Good (raiseFault r s) :=
  { h with err := errSet_toNat_lt .numFault h.err, seen := publish_seen_youngest _ }

theorem setNode {i : Nat} {n m : Node} (h : Good s) (hn : s.nodes[i]? = some n)
    (hm : ∀ nc, s.cfg.nodes[i]? = some nc → nodeWf s.cfg nc n → nodeWf s.cfg nc m) : Good (setNode s i m) :=
  { h with nodes := nodesWf_set h.nodes hn hm, seen := publish_seen_youngest _ }

/-! #### Commands -/

theorem applyCmd (i : Instr) (h : Good s) : Good (applyCmd i s) := by
  rcases applyCmd_cases i s with he | ⟨b, he⟩ | he |
    ⟨j, n, hn, ⟨p, v, he⟩ | ⟨k, b, he⟩ | ⟨k, v, he⟩ | ⟨r, he⟩⟩ <;> rw [he]
  · exact h
  · exact h.setErr b
  · exact h.takeAnswer.setErr .loadFail
  · exact h.setNode hn fun _ _ hw => nodeWf_setIn p v hw
  · exact h.setNode hn fun _ _ hw => nodeWf_mapSeq (fun _ => rfl) (fun _ => rfl) (fun _ => rfl) hw
  · exact h.setNode hn fun _ _ hw =>
      nodeWf_mapSeq (fun q => memWrite_wf k v (m := q.gatelen) rfl) (fun _ => rfl) (fun _ => rfl) hw
  · refine h.takeAnswer.setNode (by simpa using hn) fun nc _ hw => ?_
    rw [takeAnswer_cfg] at hw ⊢
    exact nodeWf_loadSamples r hw

theorem applyWord (w : CmdWord) (h : Good s) : Good (applyWord w s) := by
  rcases applyWord_cases w s with ⟨i, -, he⟩ | ⟨b, he⟩ | he <;> rw [he]
  · exact h.applyCmd i
  · exact h.setErr b
  · exact h

theorem applyWords (ws : List CmdWord) (h : Good s) :
    Good (ws.foldl (fun u w => Machine.applyWord w u) s) := by
  induction ws generalizing s with
  | nil => exact h
  | cons w ws ih => exact ih (h.applyWord w)

/-- R481, R482: the drain halts only with the channel closed, and it has emptied the queue. -/
theorem drain (h : Good s) : Good (drain s) := by
  have hempty : Good { s with cmdq := [] } :=
    { h with halted := fun hr => ⟨(h.halted hr).1, rfl⟩, seen := publish_seen_youngest _ }
  refine { hempty.applyWords s.cmdq with halted := fun hr => ⟨?_, drain_cmdq s⟩, seen := publish_seen_youngest _ }
  rw [publish_run, drain_run] at hr
  rw [publish_closed, drain_closed]
  split at hr
  · assumption
  · exact (h.halted hr).1

/-! #### The engine -/

theorem stepAll (h : Good s) : Good (stepAll s) :=
  { h with nodes := nodesWf_stepNodes _ h.nodes, seen := publish_seen_youngest _ }

theorem tickAll (h : Good s) : Good (tickAll s) :=
  { h with nodes := nodesWf_tickNodes _ h.nodes, seen := publish_seen_youngest _ }

/-- R452: TICK_CTR is reloaded with TICK_PERIOD − 1, or counts down. -/
theorem tickCount (h : Good s) : Good (tickCount s) := by
  refine { h with tick := ?_, seen := publish_seen_youngest _ }
  have hlt : s.tickCtr.toNat < s.cfg.tickPeriod.toNat := h.tick
  simp only [publish_tickCtr, publish_cfg, tickCount_tickCtr, tickCount_cfg, tickFires, decide_eq_true_eq]
  split
  · bv_omega
  · bv_omega

theorem tickPhase (h : Good s) : Good (tickPhase s) := by
  unfold Machine.tickPhase
  split
  · exact h.tickCount.tickAll
  · exact h.tickCount

theorem propagate (h : Good s) : Good (propagate s) :=
  { h with nodes := nodesWf_propagateWires _ h.nodes, seen := publish_seen_youngest _ }

theorem emit (h : Good s) : Good (emit s) :=
  { h with
    sample := sampleWord_toNat_lt _
    beat := beatWord_toNat_lt _
    sink := by simpa using Nat.le_succ_of_le h.sink
    seen := publish_seen_youngest _ }

/-- R456: BUF_CTR is cleared in the iteration that fills the buffer, and counts up in the others. -/
theorem execUpdate (h : Good s) : Good (execUpdate s) := by
  refine { h with buf := ?_, seen := publish_seen_youngest _ }
  have hlt : s.bufCtr.toNat < s.cfg.bufferLen := h.buf
  simp only [publish_bufCtr, publish_cfg, execUpdate_bufCtr, execUpdate_cfg, bufferFull, decide_eq_true_eq]
  split
  · exact Nat.zero_lt_of_lt hlt
  · have hle : (s.bufCtr + 1).toNat ≤ s.bufCtr.toNat + 1 := by bv_omega
    omega

theorem afterDrain (h : Good s) : Good (afterDrain s) :=
  { h.stepAll.tickPhase.propagate.emit.execUpdate with seen := publish_seen_youngest _ }

theorem iterate (h : Good s) : Good (iterate s) := by
  rcases iterate_cases s with ⟨-, he⟩ | ⟨-, -, he⟩ | ⟨-, -, he⟩ <;> rw [he]
  · exact h
  · exact h.drain
  · exact h.drain.afterDrain

/-! #### The agents -/

theorem exec {i : Instr} {t : State} (h : Good s) (he : exec i s = .next t) : Good t := by
  rcases exec_next he with rfl | ⟨w, f, raw, rfl⟩ | rfl | ⟨n, hn, rfl | rfl⟩ | ⟨g, hg, rfl⟩ | rfl | rfl | rfl | rfl
  · exact h.applyCmd i
  · exact { h with seen := publish_seen_youngest _ }
  · exact h.raiseFault _
  · exact h.setNode hn fun _ hnc hw => nodeWf_stepNode hnc hw
  · exact h.setNode hn fun _ _ hw => nodeWf_tickNode hw
  · exact { h with accepted := hg, seen := publish_seen_youngest _ }
  · exact h.iterate
  · exact h.propagate
  · exact h.emit
  · exact h.drain

theorem discardWord (e : DecodeError) (h : Good s) : Good (discardWord e s) := by
  cases e with
  | badOpcode => exact h.setErr .badOpcode
  | reservedBits => exact h.setErr .reserved
  | reservedNum => exact h
  | reservedDisp => exact h

/-- R541: SINK takes a sample that is there. -/
theorem consume {v : Word} (hv : s.outStream[s.sinkPos]? = some v) (h : Good s) :
    Good { s with sinkPos := s.sinkPos + 1, sinkData := v } :=
  { h with sink := (List.getElem?_eq_some_iff.1 hv).1, seen := publish_seen_youngest _ }

/-- R480: a push finds the channel open, so the block is not halted. -/
theorem push (w : CmdWord) (ho : s.closed = false) (h : Good s) : Good { s with cmdq := s.cmdq ++ [w] } :=
  { h with
    halted := fun hr => absurd (h.halted hr).1 (by simp [ho])
    seen := publish_seen_youngest _ }

theorem operands (ops : Operands) (h : Good s) : Good { s with opr := ops } :=
  { h with seen := publish_seen_youngest _ }

theorem hostClose (h : Good s) : Good (hostClose s) :=
  { h with halted := fun hr => ⟨rfl, (h.halted hr).2⟩, seen := publish_seen_youngest _ }

theorem runEvent {e : Event} {t : State} (h : Good s) (he : runEvent e s = .next t) : Good t := by
  rcases runEvent_next he with rfl | ⟨a, r, -, -, -, -, -, rfl⟩ | rfl | rfl | ⟨w, ho, rfl⟩ | rfl | ⟨v, hv, rfl⟩ |
    ⟨-, ops, ⟨i, hi⟩ | ⟨d, rfl⟩⟩
  · exact h.iterate
  · exact { h with seen := publish_seen_youngest _ }
  · exact { h with seen := publish_seen_youngest _ }
  · exact h
  · exact h.push w ho
  · exact h.hostClose
  · exact h.consume hv
  · exact (h.operands ops).exec hi
  · exact (h.operands ops).discardWord d

end Good

/-- Settles O9: the agent's action, which starts in a good state with the agenda moved on, leaves a good one, and the
step publishes it. -/
theorem everyStepKeepsTheInvariant : Obligations.EveryStepKeepsTheInvariant := by
  intro s t h hstep
  rcases step_next hstep with ⟨-, rfl⟩ | ⟨e, rest, u, -, hu, rfl⟩
  · exact h.good.iterate
  · have hrest : Good { s with agenda := rest } := { h with seen := publish_seen_youngest _ }
    exact hrest.runEvent hu

/-! ### What no step takes back -/

/-- R40, R44, R48, R458, R482: t lies further on in the session than s, or where s does. -/
structure Onward (s t : State) : Prop where
  cfg : t.cfg = s.cfg
  stream : ∃ l, t.outStream = s.outStream ++ l
  err : t.err &&& s.err = s.err
  run : s.run = false → t.run = false
  closed : s.closed = true → t.closed = true

/-- R48: a set bit of ERR stays set. -/
theorem errSet_and_self (e : HostWord) (b : ErrBit) : errSet e b &&& e = e := by
  ext i hi
  simp only [errSet, BitVec.getElem_and, BitVec.getElem_or]
  cases e[i] <;> simp

/-- R452: TICK_FIRES and the ticks change nodes and TICK_CTR alone. -/
theorem tickPhase_frame (s : State) : ∃ ns k, tickPhase s = { s with nodes := ns, tickCtr := k } := by
  unfold tickPhase
  split
  · exact ⟨_, _, rfl⟩
  · exact ⟨_, _, rfl⟩

namespace Onward

variable {s t u : State}

/-- A state that agrees in the fields the session orders. -/
theorem of_same (hcfg : t.cfg = s.cfg) (hstream : t.outStream = s.outStream) (herr : t.err = s.err)
    (hrun : t.run = s.run) (hclosed : t.closed = s.closed) : Onward s t where
  cfg := hcfg
  stream := ⟨[], by rw [hstream, List.append_nil]⟩
  err := by rw [herr, BitVec.and_self]
  run h := hrun.trans h
  closed h := hclosed.trans h

theorem refl (s : State) : Onward s s := of_same rfl rfl rfl rfl rfl

theorem trans (h : Onward s t) (h' : Onward t u) : Onward s u where
  cfg := h'.cfg.trans h.cfg
  stream := by
    obtain ⟨l, hl⟩ := h.stream
    obtain ⟨l', hl'⟩ := h'.stream
    exact ⟨l ++ l', by rw [hl', hl, List.append_assoc]⟩
  err := calc
    u.err &&& s.err = (u.err &&& t.err) &&& s.err := by rw [BitVec.and_assoc, h.err]
    _ = s.err := by rw [h'.err, h.err]
  run := h'.run ∘ h.run
  closed := h'.closed ∘ h.closed

theorem setErr (b : ErrBit) (s : State) : Onward s (setErr b s) :=
  { refl s with err := errSet_and_self s.err b }

theorem takeAnswer (s : State) : Onward s (takeAnswer s) := of_same (by simp) (by simp) (by simp) (by simp) (by simp)

theorem setNode (s : State) (i : Nat) (n : Node) : Onward s (setNode s i n) := of_same rfl rfl rfl rfl rfl

theorem applyCmd (i : Instr) (s : State) : Onward s (applyCmd i s) := by
  rcases applyCmd_cases i s with he | ⟨b, he⟩ | he |
    ⟨j, n, -, ⟨p, v, he⟩ | ⟨k, b, he⟩ | ⟨k, v, he⟩ | ⟨r, he⟩⟩ <;> rw [he]
  · exact refl s
  · exact setErr b s
  · exact (takeAnswer s).trans (setErr _ _)
  · exact setNode s j _
  · exact setNode s j _
  · exact setNode s j _
  · exact (takeAnswer s).trans (setNode _ j _)

theorem applyWord (w : CmdWord) (s : State) : Onward s (applyWord w s) := by
  rcases applyWord_cases w s with ⟨i, -, he⟩ | ⟨b, he⟩ | he <;> rw [he]
  · exact applyCmd i s
  · exact setErr b s
  · exact refl s

theorem applyWords (ws : List CmdWord) (s : State) : Onward s (ws.foldl (fun u w => Machine.applyWord w u) s) := by
  induction ws generalizing s with
  | nil => exact refl s
  | cons w ws ih => exact (applyWord w s).trans (ih _)

/-- R481, R482: the drain may halt the block and does not start it. -/
theorem drain (s : State) : Onward s (drain s) := by
  have hempty : Onward s { s with cmdq := [] } := of_same rfl rfl rfl rfl rfl
  refine { hempty.trans (applyWords s.cmdq _) with run := fun hr => ?_, closed := fun hc => ?_ }
  · simp [hr]
  · simp [hc]

/-- R450: past the drain an iteration adds one sample (R455), and writes no other of these fields. -/
theorem afterDrain (s : State) : Onward s (afterDrain s) := by
  obtain ⟨ns, k, hk⟩ := tickPhase_frame (stepAll s)
  unfold Machine.afterDrain
  rw [hk]
  exact { refl s with stream := ⟨[_], rfl⟩ }

theorem iterate (s : State) : Onward s (iterate s) := by
  rcases iterate_cases s with ⟨-, he⟩ | ⟨-, -, he⟩ | ⟨-, -, he⟩ <;> rw [he]
  · exact refl s
  · exact drain s
  · exact (drain s).trans (afterDrain _)

theorem exec {i : Instr} (he : exec i s = .next t) : Onward s t := by
  rcases exec_next he with rfl | ⟨w, f, raw, rfl⟩ | rfl | ⟨n, -, rfl | rfl⟩ | ⟨g, -, rfl⟩ | rfl | rfl | rfl | rfl
  · exact applyCmd i s
  · exact of_same rfl rfl rfl rfl rfl
  · exact { refl s with err := errSet_and_self s.err .numFault }
  · exact setNode s _ _
  · exact setNode s _ _
  · exact of_same rfl rfl rfl rfl rfl
  · exact iterate s
  · exact of_same rfl rfl rfl rfl rfl
  · exact { refl s with stream := ⟨[outputSample s], rfl⟩ }
  · exact drain s

theorem discardWord (e : DecodeError) (s : State) : Onward s (discardWord e s) := by
  cases e with
  | badOpcode => exact setErr .badOpcode s
  | reservedBits => exact setErr .reserved s
  | reservedNum => exact refl s
  | reservedDisp => exact refl s

theorem runEvent {e : Event} (he : runEvent e s = .next t) : Onward s t := by
  rcases runEvent_next he with rfl | ⟨a, r, -, -, -, -, -, rfl⟩ | rfl | rfl | ⟨w, -, rfl⟩ | rfl | ⟨v, -, rfl⟩ |
    ⟨-, ops, hissue⟩
  · exact iterate s
  · exact of_same rfl rfl rfl rfl rfl
  · exact of_same rfl rfl rfl rfl rfl
  · exact refl _
  · exact of_same rfl rfl rfl rfl rfl
  · exact { refl s with closed := fun _ => rfl }
  · exact of_same rfl rfl rfl rfl rfl
  · have hops : Onward s { s with opr := ops } := of_same rfl rfl rfl rfl rfl
    rcases hissue with ⟨i, hi⟩ | ⟨d, rfl⟩
    · exact hops.trans (exec hi)
    · exact hops.trans (discardWord d _)

theorem publish (s : State) : Onward s (publish s) := of_same rfl rfl rfl rfl rfl

theorem step (h : step s = .next t) : Onward s t := by
  rcases step_next h with ⟨-, rfl⟩ | ⟨e, rest, u, -, hu, rfl⟩
  · exact (iterate s).trans (publish _)
  · have hrest : Onward s { s with agenda := rest } := of_same rfl rfl rfl rfl rfl
    exact hrest.trans ((runEvent hu).trans (publish u))

end Onward

/-- Settles O54: every operation a step is made of leads onward, and leading onward is transitive. -/
theorem sessionNeverGoesBack : Obligations.SessionNeverGoesBack := by
  intro s t h
  obtain ⟨hcfg, hstream, herr, hrun, hclosed⟩ := Onward.step h
  exact ⟨hcfg, hstream, herr, hrun, hclosed⟩

/-! ### EXEC_TIME -/

/-- R47: the state with another value in EXEC_TIME. -/
def setExecTime (x : HostWord) (s : State) : State := { s with execTime := x }

section ExecTime

variable (x : HostWord) (s : State)

/-- A command that does not look at EXEC_TIME past its target check does not look at it at all. -/
theorem onTarget_setExecTime (k : Kind) (node : BitVec 8) {f g : Node → State}
    (hfg : ∀ n, g n = setExecTime x (f n)) :
    onTarget k node g (setExecTime x s) = setExecTime x (onTarget k node f s) := by
  have ht : targetNode (setExecTime x s) k node = targetNode s k node := rfl
  unfold onTarget
  rw [ht]
  cases targetNode s k node with
  | none => rfl
  | some n => exact hfg n

theorem writeLatch_setExecTime (k : Kind) (node : BitVec 8) (p : Nat) (v : Word) :
    writeLatch k node p v (setExecTime x s) = setExecTime x (writeLatch k node p v s) :=
  onTarget_setExecTime x s k node fun _ => rfl

theorem writeStep_setExecTime (node elem : BitVec 8) (f : Nat → SeqSt → SeqSt) :
    writeStep node elem f (setExecTime x s) = setExecTime x (writeStep node elem f s) := by
  refine onTarget_setExecTime x s .seq node fun n => ?_
  split
  · rfl
  · rfl

theorem takeAnswer_setExecTime : takeAnswer (setExecTime x s) = setExecTime x (takeAnswer s) := by
  simp only [takeAnswer, setExecTime]
  cases s.wsrcAnswers with
  | nil => rfl
  | cons a rest => rfl

/-- R496, R497: WSRC's answer is chosen without EXEC_TIME. -/
theorem applyLoadWave_setExecTime (node : BitVec 8) (h : BitVec 32) :
    applyLoadWave node h (setExecTime x s) = setExecTime x (applyLoadWave node h s) := by
  have ha : nextAnswer (setExecTime x s) h = nextAnswer s h := rfl
  refine onTarget_setExecTime x s .osc node fun n => ?_
  rw [ha, takeAnswer_setExecTime]
  cases nextAnswer s h with
  | fail => rfl
  | samples r => rfl

theorem applyCmd_setExecTime (i : Instr) : applyCmd i (setExecTime x s) = setExecTime x (applyCmd i s) := by
  cases i with
  | setEnvAttackFor node v => exact writeLatch_setExecTime x s .env node pAttackFor v
  | setEnvAttackTo node v => exact writeLatch_setExecTime x s .env node pAttackTo v
  | setEnvDecayFor node v => exact writeLatch_setExecTime x s .env node pDecayFor v
  | setEnvSustainAt node v => exact writeLatch_setExecTime x s .env node pSustainAt v
  | setEnvReleaseFor node v => exact writeLatch_setExecTime x s .env node pReleaseFor v
  | setPattern node elem b =>
    exact writeStep_setExecTime x s node elem fun i q => { q with pattern := patWrite q.pattern i b }
  | setGatelen node elem v =>
    exact writeStep_setExecTime x s node elem fun i q => { q with gatelen := memWrite q.gatelen i v }
  | setOscFreq node v => exact writeLatch_setExecTime x s .osc node pFreq v
  | setOscScale node v => exact writeLatch_setExecTime x s .osc node pModDepth v
  | loadWave node h => exact applyLoadWave_setExecTime x s node h
  | _ => rfl

theorem applyWord_setExecTime (w : CmdWord) : applyWord w (setExecTime x s) = setExecTime x (applyWord w s) := by
  unfold applyWord
  cases decodeCmd w with
  | ok i => exact applyCmd_setExecTime x s i
  | error e => cases e <;> rfl

theorem applyWords_setExecTime (ws : List CmdWord) :
    ws.foldl (fun u w => applyWord w u) (setExecTime x s) =
      setExecTime x (ws.foldl (fun u w => applyWord w u) s) :=
  List.foldl_hom (setExecTime x) fun u w => applyWord_setExecTime x u w

theorem drain_setExecTime : drain (setExecTime x s) = setExecTime x (drain s) := by
  have hq : ({ setExecTime x s with cmdq := [] } : State) = setExecTime x { s with cmdq := [] } := rfl
  have hws : (setExecTime x s).cmdq = s.cmdq := rfl
  simp only [drain, hq, hws, applyWords_setExecTime]
  rfl

theorem tickPhase_setExecTime : tickPhase (setExecTime x s) = setExecTime x (tickPhase s) := by
  have hf : tickFires (setExecTime x s) = tickFires s := rfl
  unfold tickPhase
  rw [hf]
  split
  · rfl
  · rfl

/-- R456: EXEC_UPDATE writes a drawn value or keeps the old one, and nothing else depends on which. -/
theorem execUpdate_setExecTime : execUpdate (setExecTime x s) =
    setExecTime (if bufferFull s then Config.execTimeDraw s.draws else x) (execUpdate s) := rfl

/-- R460: what follows the drain puts some value in EXEC_TIME and the same values in every other field. -/
theorem afterDrain_setExecTime : ∃ y, afterDrain (setExecTime x s) = setExecTime y (afterDrain s) := by
  have hphases : emit (propagate (tickPhase (stepAll (setExecTime x s)))) =
      setExecTime x (emit (propagate (tickPhase (stepAll s)))) := by
    rw [show stepAll (setExecTime x s) = setExecTime x (stepAll s) from rfl, tickPhase_setExecTime]
    rfl
  unfold afterDrain
  rw [hphases, execUpdate_setExecTime]
  exact ⟨_, rfl⟩

theorem iterate_setExecTime : ∃ y, iterate (setExecTime x s) = setExecTime y (iterate s) := by
  have hrun : ∀ u, (setExecTime x u).run = u.run := fun _ => rfl
  unfold iterate
  rw [drain_setExecTime, hrun, hrun]
  split
  · split
    · exact afterDrain_setExecTime x (drain s)
    · exact ⟨x, rfl⟩
  · exact ⟨x, rfl⟩

end ExecTime

/-- Settles O53: the drain and the phases up to EMIT carry EXEC_TIME along, and EXEC_UPDATE alone writes it. -/
theorem execTimeReachesNothing : Obligations.ExecTimeReachesNothing :=
  fun s x => iterate_setExecTime x s

/-! ### SINK -/

/-- Settles O60: a consume reads the entry of OUT_STREAM at SINK's position, which is there or not. -/
theorem sinkConsumesInOrder : Obligations.SinkConsumesInOrder := by
  intro s
  refine ⟨fun v hv => ?_, fun hlen => ?_⟩
  · simp [runEvent, sinkConsume, hv]
  · simp [runEvent, sinkConsume, List.getElem?_eq_none hlen]

end Sys2Proof.Machine
end

section
/-! PROOFS. The memory family: what a step fetches and runs, the HOST window of R122, and the windows of R135. -/

namespace Sys2Proof.Machine

/-! ### What a step runs -/

/-- R170: a table word that decodes is an item that decodes. -/
theorem decodeTableWord_eq_some {nbits w : Nat} {i : Instr} (h : decodeTableWord nbits w = some i) :
    ∃ it, itemOfTable nbits w = some it ∧ decode it = .ok i := by
  unfold decodeTableWord at h
  cases hit : itemOfTable nbits w with
  | none => simp [hit] at h
  | some it =>
    cases hd : decode it with
    | error e => simp [hit, hd, Except.toOption] at h
    | ok j =>
      simp only [hit, hd, Except.toOption, Option.some.injEq] at h
      exact ⟨it, rfl, h ▸ hd⟩

/-- R133, R170: an item at the head of the agenda of a running block is run with its operands. -/
theorem step_issue {s : State} {it : Item} {ops : Operands} {rest : List Event} {i : Instr} (hrun : s.run = true)
    (hag : s.agenda = .issue it ops :: rest) (hdec : decode it = .ok i) :
    step s = publishOutcome (exec i { s with agenda := rest, opr := ops }) := by
  simp [step, agentStep, hag, runEvent, issueItem, hrun, runItem, hdec]

/-- The fetch places the item of a table word (log 6). -/
theorem withFetchWord_of {s : State} {nbits w : Nat} {it : Item} (h : itemOfTable nbits w = some it) :
    s.withFetchWord nbits w = placeItem it s := by
  simp [State.withFetchWord, placeWord, h]

/-- Settles O6: what the fetch places is an item issued in a running block, so both clauses are `step_issue`. -/
theorem stepRunsTheDecodedInstruction : Obligations.StepRunsTheDecodedInstruction := by
  refine ⟨fun s it ops rest i hrun hag hdec => step_issue hrun hag hdec, fun s nbits w i h => ?_⟩
  obtain ⟨it, hit, hdec⟩ := decodeTableWord_eq_some h
  refine ⟨it, hit, hdec, ?_⟩
  rw [withFetchWord_of hit]
  exact step_issue (s := placeItem it s) rfl rfl hdec

/-! ### The offsets of the HOST window (R122) -/

/-- R130: which register stands at which offset. -/
theorem regAt_eq_some_iff {off : Nat} {r : HostReg} : regAt off = some r ↔
    (off, r) ∈ [(0x00, HostReg.sampleOut), (0x04, .beatIndex), (0x08, .execTime), (0x0C, .err), (0x10, .status)] := by
  constructor
  · intro h
    unfold regAt at h
    split at h <;> cases h <;> simp
  · intro h
    simp only [List.mem_cons, Prod.mk.injEq, List.not_mem_nil, or_false] at h
    rcases h with ⟨rfl, rfl⟩ | ⟨rfl, rfl⟩ | ⟨rfl, rfl⟩ | ⟨rfl, rfl⟩ | ⟨rfl, rfl⟩ <;> rfl

/-- R130: the registers are the aligned words up to 0x10. -/
theorem regAt_lt {off : Nat} {r : HostReg} (h : regAt off = some r) : off % 4 = 0 ∧ off < 0x14 := by
  rw [regAt_eq_some_iff] at h
  simp only [List.mem_cons, Prod.mk.injEq, List.not_mem_nil, or_false] at h
  omega

theorem regAt_eq_none {off : Nat} (h : off % 4 ≠ 0 ∨ 0x14 ≤ off) : regAt off = none := by
  cases hr : regAt off with
  | none => rfl
  | some r =>
    obtain ⟨hal, hlt⟩ := regAt_lt hr
    omega

theorem ignoredWriteAt_iff {off : Nat} :
    ignoredWriteAt off = true ↔ off % 4 = 0 ∧ off < 0x40 ∧ off ≠ 0x20 ∧ off ≠ 0x24 := by
  simp only [ignoredWriteAt, decide_eq_true_eq]
  omega

theorem reservedAt_iff {off : Nat} :
    reservedAt off = true ↔ off % 4 = 0 ∧ 0x14 ≤ off ∧ off < 0x40 ∧ off ≠ 0x20 ∧ off ≠ 0x24 := by
  simp only [reservedAt, decide_eq_true_eq]
  omega

/-! ### The HOST accesses (R122) -/

section Accesses

variable {a : Access} {off : Nat} {s : State}

theorem runEvent_access_below (h : a.addr < s.cfg.hostBase) : runEvent (.access a) s = .refused .hostAccess := by
  simp [runEvent, hostAccess, h]

/-- R130: the offset is counted from HOST_BASE. -/
theorem runEvent_access (h : a.addr = s.cfg.hostBase + off) : runEvent (.access a) s = hostAt a off s := by
  simp [runEvent, hostAccess, h]

theorem hostAt_other (h32 : a.width ≠ 32) (h64 : a.width ≠ 64) : hostAt a off s = .refused .hostAccess := by
  simp [hostAt, h32, h64]

theorem hostAt_write32 (h32 : a.width = 32) (hw : a.write = true) : hostAt a off s = hostWrite32 off s := by
  simp [hostAt, h32, hw]

theorem hostAt_read32 (h32 : a.width = 32) (hw : a.write = false) : hostAt a off s = hostRead32 off a.age s := by
  simp [hostAt, h32, hw]

theorem hostAt_read64 (h64 : a.width = 64) (hw : a.write = false) : hostAt a off s = hostRead64 off s := by
  simp [hostAt, h64, hw]

theorem hostWrite32_ignored (h : ignoredWriteAt off = true) : hostWrite32 off s = .next s := by
  simp [hostWrite32, h]

theorem hostRead32_reg {r : HostReg} {age : Nat} (h : regAt off = some r) :
    hostRead32 off age s = .next (readReg r age s) := by
  simp [hostRead32, h]

theorem hostRead32_reserved {age : Nat} (h : reservedAt off = true) :
    hostRead32 off age s = .next { s with busData := 0 } := by
  simp [hostRead32, h, regAt_eq_none (.inr (reservedAt_iff.1 h).2.1)]

/-- R122: a 32-bit access at an offset the rule does not list for that width. -/
theorem hostAt_unlisted32 (h32 : a.width = 32) (h : off % 4 ≠ 0 ∨ off = 0x20 ∨ off = 0x24 ∨ 0x40 ≤ off) :
    hostAt a off s = .refused .hostAccess := by
  have hreg : regAt off = none := regAt_eq_none (by omega)
  have hres : reservedAt off ≠ true := fun hr => by rw [reservedAt_iff] at hr; omega
  have hign : ignoredWriteAt off ≠ true := fun hi => by rw [ignoredWriteAt_iff] at hi; omega
  cases hw : a.write with
  | true => simp [hostAt_write32 h32 hw, hostWrite32, hign]
  | false => simp [hostAt_read32 h32 hw, hostRead32, hreg, hres]

/-- R121, R122: a 64-bit access elsewhere than at the queue. -/
theorem hostAt_unlisted64 (h64 : a.width = 64) (h : off ≠ 0x20) : hostAt a off s = .refused .hostAccess := by
  cases hw : a.write with
  | true => simp [hostAt, h64, hw, hostWrite64, h]
  | false => simp [hostAt_read64 h64 hw, hostRead64, h]

end Accesses

/-- Settles O59: each clause is the access's equation at an offset of that clause's range. -/
theorem hostWindowIsDecodedAsListed : Obligations.HostWindowIsDecodedAsListed := by
  refine ⟨fun s a hbelow => runEvent_access_below hbelow, fun s a off haddr => ?_⟩
  rw [runEvent_access haddr]
  refine ⟨?_, ?_, ?_, ?_⟩
  · rintro (⟨h32, h64⟩ | ⟨h32, hoff⟩ | ⟨h64, hoff⟩)
    · exact hostAt_other h32 h64
    · exact hostAt_unlisted32 h32 hoff
    · exact hostAt_unlisted64 h64 hoff
  · intro h32 hal hlt h20 h24 hw
    rw [hostAt_write32 h32 hw, hostWrite32_ignored (ignoredWriteAt_iff.2 ⟨hal, hlt, h20, h24⟩)]
  · intro h32 hal hge hlt h20 h24 hw
    rw [hostAt_read32 h32 hw, hostRead32_reserved (reservedAt_iff.2 ⟨hal, hge, hlt, h20, h24⟩)]
  · rintro h64 rfl hw
    rw [hostAt_read64 h64 hw]
    rfl

/-! ### Reading a register through its window (R135) -/

/-- R122, R130: the access the statements call a read of a register is one that reads it. -/
theorem runEvent_of_reads {a : Access} {r : HostReg} {s : State} (h : Claims.Reads s a r) :
    runEvent (.access a) s = .next (readReg r a.age s) := by
  obtain ⟨hw, h32, off, haddr, hoff⟩ := h
  rw [runEvent_access haddr, hostAt_read32 h32 hw, hostRead32_reg (regAt_eq_some_iff.2 hoff)]

/-- R122, R130: conversely, what the model reads a register on is what the statements call a read of it. -/
theorem reads_of_regAt {a : Access} {r : HostReg} {s : State} (hw : a.write = false) (h32 : a.width = 32)
    (hbase : s.cfg.hostBase ≤ a.addr) (hr : regAt (a.addr - s.cfg.hostBase) = some r) : Claims.Reads s a r :=
  ⟨hw, h32, a.addr - s.cfg.hostBase, by omega, regAt_eq_some_iff.1 hr⟩

theorem windowIndex_lt {w : List HostWord} (age : Nat) (h : w ≠ []) : windowIndex w age < w.length := by
  have hlen : 0 < w.length := List.length_pos_iff.2 h
  unfold windowIndex
  omega

/-- R135: the entry `age` before the youngest, or the oldest, stands after the older values. -/
theorem windowIndex_append {older newer : List HostWord} {v : HostWord} {age : Nat}
    (h : newer.length = min age (older.length + newer.length)) :
    windowIndex (older ++ v :: newer) age = older.length := by
  simp only [windowIndex, List.length_append, List.length_cons]
  omega

/-- R135: a read returns the value it reaches, and the values older than that one leave the window. -/
theorem readReg_eq {s : State} {r : HostReg} {older newer : List HostWord} {v : HostWord} {age : Nat}
    (hwin : window s.seen r = older ++ v :: newer) (h : newer.length = min age (older.length + newer.length)) :
    readReg r age s = { s with busData := v.setWidth 64, seen := setWindow s.seen r (v :: newer) } := by
  simp [readReg, hwin, windowIndex_append h]

/-- R49: STATUS has a bit for each of its three conditions, and they do not overlap. -/
theorem statusWord_eq_add (s : State) :
    statusWord s = (if s.run then 1 else 0) + (if s.closed then 2 else 0) + (if s.cmdq = [] then 4 else 0) := by
  simp only [statusWord, List.isEmpty_iff]
  cases s.run <;> cases s.closed <;> by_cases hq : s.cmdq = [] <;> simp [hq]

/-- Settles O56: in a state of the invariant the youngest value of the window, which age 0 takes, is the present one. -/
theorem hostReadReturnsTheRegister : Obligations.HostReadReturnsTheRegister := by
  intro s off r v hinv hmem
  have hreg : regAt off = some r ∧ v = hostReg s r := by
    rw [← statusWord_eq_add] at hmem
    simp only [List.mem_cons, Prod.mk.injEq, List.not_mem_nil, or_false] at hmem
    rcases hmem with ⟨rfl, rfl, rfl⟩ | ⟨rfl, rfl, rfl⟩ | ⟨rfl, rfl, rfl⟩ | ⟨rfl, rfl, rfl⟩ | ⟨rfl, rfl, rfl⟩ <;>
      exact ⟨rfl, rfl⟩
  obtain ⟨hoff, rfl⟩ := hreg
  obtain ⟨older, hwin⟩ := List.getLast?_eq_some_iff.1 (hinv.seen r)
  rw [runEvent_of_reads ⟨rfl, rfl, off, rfl, regAt_eq_some_iff.1 hoff⟩, readReg_eq hwin (Nat.zero_min _).symm]

/-! ### What a step leaves of the windows (R135) -/

/-- R135: an agent's action reads a register or leaves the windows. -/
theorem runEvent_seen {e : Event} {s u : State} (h : runEvent e s = .next u) :
    (∃ a r, e = .access a ∧ Claims.Reads s a r ∧ u = readReg r a.age s) ∨ u.seen = s.seen := by
  rcases runEvent_next h with rfl | ⟨a, r, he, hw, h32, hbase, hr, hu⟩ | rfl | rfl | ⟨w, -, rfl⟩ | rfl | ⟨v, -, rfl⟩ |
    ⟨-, ops, ⟨i, hi⟩ | ⟨d, rfl⟩⟩
  · exact .inr (iterate_seen s)
  · exact .inl ⟨a, r, he, reads_of_regAt hw h32 hbase hr, hu⟩
  · exact .inr rfl
  · exact .inr rfl
  · exact .inr rfl
  · exact .inr rfl
  · exact .inr rfl
  · have hseen := exec_seen hi
    exact .inr hseen
  · exact .inr (by cases d <;> rfl)

/-- R135: an agent's action leaves the younger part of a window, all of it where it does not read that register. -/
theorem runEvent_window {e : Event} {s u : State} (h : runEvent e s = .next u) (r : HostReg) :
    ∃ k, (k = 0 ∨ ∃ a, e = .access a ∧ Claims.Reads s a r) ∧
      (window s.seen r ≠ [] → k < (window s.seen r).length) ∧ window u.seen r = (window s.seen r).drop k := by
  rcases runEvent_seen h with ⟨a, r', rfl, hreads, rfl⟩ | hseen
  · by_cases hr : r = r'
    · subst hr
      exact ⟨windowIndex (window s.seen r) a.age, .inr ⟨a, rfl, hreads⟩, windowIndex_lt a.age, by simp⟩
    · exact ⟨0, .inl rfl, List.length_pos_iff.2, by simp [window_setWindow_ne _ _ _ _ hr]⟩
  · exact ⟨0, .inl rfl, List.length_pos_iff.2, by simp [hseen]⟩

/-- R135: publishing a state enters its registers in its windows as the statements say it. -/
theorem window_publish_seenAfter (u : State) (r : HostReg) :
    window (publish u).seen r = Claims.seenAfter (window u.seen r) (hostReg u r) :=
  window_publish u r

/-- R133: the step of an action that answers a next state. -/
theorem step_of_runEvent {e : Event} {rest : List Event} {s u : State} (hag : s.agenda = e :: rest)
    (h : runEvent e { s with agenda := rest } = .next u) : step s = .next (publish u) := by
  simp [step, agentStep, hag, h, publishOutcome]

/-- Settles O57: the action drops the older part of a window only when it reads that register, publishing enters the
register's value at the young end, and a read drops exactly the values older than the one it returns. -/
theorem hostReadsNeverGoBack : Obligations.HostReadsNeverGoBack := by
  refine ⟨fun s t r h => ?_, fun s a rest r older newer v hag hreads hwin hage => ?_⟩
  · rcases step_next h with ⟨-, rfl⟩ | ⟨e, rest, u, hag, hu, rfl⟩
    · refine ⟨0, .inl rfl, List.length_pos_iff.2, ?_⟩
      rw [window_publish_seenAfter, iterate_seen, hostReg_publish, List.drop_zero]
    · obtain ⟨k, hk, hlt, hdrop⟩ := runEvent_window hu r
      refine ⟨k, hk.imp_right ?_, hlt, ?_⟩
      · rintro ⟨a, rfl, hreads⟩
        exact ⟨a, rest, hag, hreads⟩
      · rw [window_publish_seenAfter, hdrop, hostReg_publish]
  · have hreads' : Claims.Reads { s with agenda := rest } a r := hreads
    have hread : readReg r a.age { s with agenda := rest } =
        { s with agenda := rest, busData := v.setWidth 64, seen := setWindow s.seen r (v :: newer) } :=
      readReg_eq (s := { s with agenda := rest }) hwin hage
    refine ⟨_, step_of_runEvent hag (runEvent_of_reads hreads'), ?_⟩
    rw [hread]
    refine ⟨rfl, ?_, rfl⟩
    rw [window_publish_seenAfter, window_setWindow_same]
    cases r <;> rfl

end Sys2Proof.Machine
end

section
/-! PROOFS. The encoding family: decoder and encoder are inverse to each other, what is reserved is refused, and the
assembler, the expansions and the engine's operations stand for the instructions they name. -/

namespace Sys2Proof

/-! ### The fields of a command word (R171) -/

/-- R171: the number a command word is, from its fields. -/
theorem encodeCmd_toNat (op node elem : BitVec 8) (payload : BitVec 32) :
    (encodeCmd op node elem payload).toNat =
      op.toNat * 2 ^ 56 + node.toNat * 2 ^ 48 + elem.toNat * 2 ^ 40 + payload.toNat := by
  change (BitVec.toNat (w := 8 + 8 + 8 + 8 + 32) (op ++ node ++ elem ++ (0 : BitVec 8) ++ payload)) = _
  simp only [BitVec.toNat_append]
  rw [← Nat.shiftLeft_add_eq_or_of_lt payload.isLt, ← Nat.shiftLeft_add_eq_or_of_lt (0 : BitVec 8).isLt,
    ← Nat.shiftLeft_add_eq_or_of_lt elem.isLt, ← Nat.shiftLeft_add_eq_or_of_lt node.isLt]
  have hzero : (0 : BitVec 8).toNat = 0 := rfl
  simp only [Nat.shiftLeft_eq, hzero]
  omega

theorem cmdOp_toNat (w : CmdWord) : (cmdOp w).toNat = w.toNat / 2 ^ 56 := by
  have hw := w.isLt
  simp only [cmdOp, BitVec.extractLsb'_toNat, Nat.shiftRight_eq_div_pow]
  omega

theorem cmdNode_toNat (w : CmdWord) : (cmdNode w).toNat = w.toNat / 2 ^ 48 % 2 ^ 8 := by
  simp only [cmdNode, BitVec.extractLsb'_toNat, Nat.shiftRight_eq_div_pow]

theorem cmdElem_toNat (w : CmdWord) : (cmdElem w).toNat = w.toNat / 2 ^ 40 % 2 ^ 8 := by
  simp only [cmdElem, BitVec.extractLsb'_toNat, Nat.shiftRight_eq_div_pow]

theorem cmdPayload_toNat (w : CmdWord) : (cmdPayload w).toNat = w.toNat % 2 ^ 32 := by
  simp only [cmdPayload, BitVec.extractLsb'_toNat, Nat.shiftRight_zero]

theorem cmdV16_toNat (w : CmdWord) : (cmdV16 w).toNat = w.toNat % 2 ^ 16 := by
  simp only [cmdV16, BitVec.extractLsb'_toNat, Nat.shiftRight_zero]

theorem cmdBit_toNat (w : CmdWord) : (cmdBit w).toNat = w.toNat % 2 := by
  rw [cmdBit, BitVec.getLsbD, Nat.testBit_zero]
  rcases Nat.mod_two_eq_zero_or_one w.toNat with h | h <;> simp [h]

/-! ### The must-be-zero masks (R174) -/

/-- The mask of the `len` bits from bit `lo` up. -/
def bitsFrom (lo len : Nat) : CmdWord := (BitVec.allOnes len).setWidth 64 <<< lo

theorem getLsbD_bitsFrom (lo len i : Nat) :
    (bitsFrom lo len).getLsbD i = decide (i < 64 ∧ lo ≤ i ∧ i < lo + len) := by
  rw [Bool.eq_iff_iff]
  simp only [bitsFrom, BitVec.getLsbD_shiftLeft, BitVec.getLsbD_setWidth, BitVec.getLsbD_allOnes, Bool.and_eq_true,
    Bool.not_eq_true', decide_eq_true_eq, decide_eq_false_iff_not]
  omega

theorem and_bitsFrom_eq_zero_iff_bits {w : CmdWord} {lo len : Nat} (h : lo + len ≤ 64) :
    w &&& bitsFrom lo len = 0 ↔ ∀ i, lo ≤ i → i < lo + len → w.getLsbD i = false := by
  constructor
  · intro hz i hlo hhi
    have hbit : (w &&& bitsFrom lo len).getLsbD i = false := by rw [hz]; exact BitVec.getLsbD_zero
    have hsel : (bitsFrom lo len).getLsbD i = true := by
      rw [getLsbD_bitsFrom, decide_eq_true_eq]
      omega
    rwa [BitVec.getLsbD_and, hsel, Bool.and_true] at hbit
  · intro hz
    refine BitVec.eq_of_getLsbD_eq fun i hi => ?_
    by_cases hr : lo ≤ i ∧ i < lo + len
    · simp [hz i hr.1 hr.2]
    · simp [getLsbD_bitsFrom, hr]

theorem extractLsb'_eq_zero_iff_bits {w : CmdWord} {lo len : Nat} :
    w.extractLsb' lo len = 0 ↔ ∀ i, lo ≤ i → i < lo + len → w.getLsbD i = false := by
  constructor
  · intro hz i hlo hhi
    have hbit := congrArg (·.getLsbD (i - lo)) hz
    simpa [show i - lo < len by omega, show lo + (i - lo) = i by omega] using hbit
  · intro hz
    refine BitVec.eq_of_getLsbD_eq fun i hi => ?_
    simp [hz (lo + i) (by omega) (by omega)]

/-- The bits a mask selects are 0 exactly where the number they spell is 0. -/
theorem and_bitsFrom_eq_zero_iff (w : CmdWord) (lo len : Nat) (h : lo + len ≤ 64) :
    w &&& bitsFrom lo len = 0 ↔ w.toNat / 2 ^ lo % 2 ^ len = 0 := by
  rw [and_bitsFrom_eq_zero_iff_bits h, ← extractLsb'_eq_zero_iff_bits, ← BitVec.toNat_inj, BitVec.extractLsb'_toNat,
    Nat.shiftRight_eq_div_pow]
  rfl

theorem and_mbzScalar_eq_zero_iff (w : CmdWord) : w &&& mbzScalar = 0 ↔ w.toNat / 2 ^ 16 % 2 ^ 32 = 0 :=
  and_bitsFrom_eq_zero_iff w 16 32 (by decide)

theorem and_mbzPattern_eq_zero_iff (w : CmdWord) : w &&& mbzPattern = 0 ↔ w.toNat / 2 ^ 1 % 2 ^ 39 = 0 :=
  and_bitsFrom_eq_zero_iff w 1 39 (by decide)

theorem and_mbzGatelen_eq_zero_iff (w : CmdWord) : w &&& mbzGatelen = 0 ↔ w.toNat / 2 ^ 16 % 2 ^ 24 = 0 :=
  and_bitsFrom_eq_zero_iff w 16 24 (by decide)

theorem and_mbzLoad_eq_zero_iff (w : CmdWord) : w &&& mbzLoad = 0 ↔ w.toNat / 2 ^ 32 % 2 ^ 16 = 0 :=
  and_bitsFrom_eq_zero_iff w 32 16 (by decide)

/-! ### Encoding a command sets no bit under its mask -/

section Masks

variable (op node elem : BitVec 8)

theorem encodeCmd_and_mbzScalar (v : Word) : encodeCmd op node 0 (v.setWidth 32) &&& mbzScalar = 0 := by
  have hv := v.isLt
  rw [and_mbzScalar_eq_zero_iff, encodeCmd_toNat, BitVec.toNat_setWidth, show (0 : BitVec 8).toNat = 0 from rfl]
  omega

theorem encodeCmd_and_mbzPattern (b : Bool) :
    encodeCmd op node elem ((BitVec.ofBool b).setWidth 32) &&& mbzPattern = 0 := by
  have hb := (BitVec.ofBool b).isLt
  rw [and_mbzPattern_eq_zero_iff, encodeCmd_toNat, BitVec.toNat_setWidth]
  omega

theorem encodeCmd_and_mbzGatelen (v : Word) : encodeCmd op node elem (v.setWidth 32) &&& mbzGatelen = 0 := by
  have hv := v.isLt
  rw [and_mbzGatelen_eq_zero_iff, encodeCmd_toNat, BitVec.toNat_setWidth]
  omega

theorem encodeCmd_and_mbzLoad (h : BitVec 32) : encodeCmd op node 0 h &&& mbzLoad = 0 := by
  have hh := h.isLt
  rw [and_mbzLoad_eq_zero_iff, encodeCmd_toNat, show (0 : BitVec 8).toNat = 0 from rfl]
  omega

end Masks

/-! ### A word with no bit under its mask is the encoding of its fields -/

section Words

variable {w : CmdWord} {op : BitVec 8}

theorem encodeCmd_scalar_eq (hop : (cmdOp w).toNat = op.toNat) (hm : w &&& mbzScalar = 0) :
    encodeCmd op (cmdNode w) 0 ((cmdV16 w).setWidth 32) = w := by
  have hw := w.isLt
  rw [cmdOp_toNat] at hop
  rw [and_mbzScalar_eq_zero_iff] at hm
  apply BitVec.eq_of_toNat_eq
  rw [encodeCmd_toNat, BitVec.toNat_setWidth, cmdNode_toNat, cmdV16_toNat, show (0 : BitVec 8).toNat = 0 from rfl]
  omega

theorem encodeCmd_pattern_eq (hop : (cmdOp w).toNat = op.toNat) (hm : w &&& mbzPattern = 0) :
    encodeCmd op (cmdNode w) (cmdElem w) ((BitVec.ofBool (cmdBit w)).setWidth 32) = w := by
  have hw := w.isLt
  rw [cmdOp_toNat] at hop
  rw [and_mbzPattern_eq_zero_iff] at hm
  apply BitVec.eq_of_toNat_eq
  rw [encodeCmd_toNat, BitVec.toNat_setWidth, BitVec.toNat_ofBool, cmdNode_toNat, cmdElem_toNat, cmdBit_toNat]
  omega

theorem encodeCmd_gatelen_eq (hop : (cmdOp w).toNat = op.toNat) (hm : w &&& mbzGatelen = 0) :
    encodeCmd op (cmdNode w) (cmdElem w) ((cmdV16 w).setWidth 32) = w := by
  have hw := w.isLt
  rw [cmdOp_toNat] at hop
  rw [and_mbzGatelen_eq_zero_iff] at hm
  apply BitVec.eq_of_toNat_eq
  rw [encodeCmd_toNat, BitVec.toNat_setWidth, cmdNode_toNat, cmdElem_toNat, cmdV16_toNat]
  omega

theorem encodeCmd_load_eq (hop : (cmdOp w).toNat = op.toNat) (hm : w &&& mbzLoad = 0) :
    encodeCmd op (cmdNode w) 0 (cmdPayload w) = w := by
  have hw := w.isLt
  rw [cmdOp_toNat] at hop
  rw [and_mbzLoad_eq_zero_iff] at hm
  apply BitVec.eq_of_toNat_eq
  rw [encodeCmd_toNat, cmdNode_toNat, cmdPayload_toNat, show (0 : BitVec 8).toNat = 0 from rfl]
  omega

end Words

/-! ### The fields of an encoded command -/

section Fields

variable (op node elem : BitVec 8)

@[simp] theorem cmdOp_encodeCmd (payload : BitVec 32) : cmdOp (encodeCmd op node elem payload) = op := by
  apply BitVec.eq_of_toNat_eq
  rw [cmdOp_toNat, encodeCmd_toNat]
  omega

@[simp] theorem cmdNode_encodeCmd (payload : BitVec 32) : cmdNode (encodeCmd op node elem payload) = node := by
  apply BitVec.eq_of_toNat_eq
  rw [cmdNode_toNat, encodeCmd_toNat]
  omega

@[simp] theorem cmdElem_encodeCmd (payload : BitVec 32) : cmdElem (encodeCmd op node elem payload) = elem := by
  apply BitVec.eq_of_toNat_eq
  rw [cmdElem_toNat, encodeCmd_toNat]
  omega

@[simp] theorem cmdPayload_encodeCmd (payload : BitVec 32) :
    cmdPayload (encodeCmd op node elem payload) = payload := by
  apply BitVec.eq_of_toNat_eq
  rw [cmdPayload_toNat, encodeCmd_toNat]
  omega

@[simp] theorem cmdV16_encodeCmd (v : Word) : cmdV16 (encodeCmd op node elem (v.setWidth 32)) = v := by
  apply BitVec.eq_of_toNat_eq
  rw [cmdV16_toNat, encodeCmd_toNat, BitVec.toNat_setWidth]
  omega

@[simp] theorem cmdBit_encodeCmd (b : Bool) :
    cmdBit (encodeCmd op node elem ((BitVec.ofBool b).setWidth 32)) = b := by
  have hbit : (cmdBit (encodeCmd op node elem ((BitVec.ofBool b).setWidth 32))).toNat = b.toNat := by
    have hb := b.toNat_le
    rw [cmdBit_toNat, encodeCmd_toNat, BitVec.toNat_setWidth, BitVec.toNat_ofBool]
    omega
  rw [← Bool.ofNat_toNat (cmdBit _), hbit, Bool.ofNat_toNat]

end Fields

/-! ### Decoding a command word -/

/-- R176: a word decodes to its opcode's command exactly where no bit under the opcode's mask is set. -/
theorem decodeCmd_eq_ok_iff {w : CmdWord} {i : Instr} :
    decodeCmd w = .ok i ↔ ∃ m, cmdRow w = some (m, i) ∧ w &&& m = 0 := by
  unfold decodeCmd
  cases cmdRow w with
  | none => simp
  | some p =>
    obtain ⟨m, j⟩ := p
    constructor
    · intro h
      dsimp only at h
      split at h <;> cases h
      exact ⟨m, rfl, ‹_›⟩
    · rintro ⟨_, ⟨⟩, hm⟩
      exact if_pos hm

/-- R172 to R174: a word whose opcode names a command with no bit under its mask is that command's encoding. -/
theorem encode_of_cmdRow {w m : CmdWord} {i : Instr} (hrow : cmdRow w = some (m, i)) (hm : w &&& m = 0) :
    i.wf = true ∧ encode i = .cmd w := by
  unfold cmdRow at hrow
  split at hrow <;> cases hrow <;> refine ⟨rfl, congrArg Item.cmd ?_⟩
  case h_6 hop => exact encodeCmd_pattern_eq hop hm
  case h_7 hop => exact encodeCmd_gatelen_eq hop hm
  case h_10 hop => exact encodeCmd_load_eq hop hm
  all_goals exact encodeCmd_scalar_eq ‹_› hm

/-! ### The fields of a descriptor (R177, R178) -/

/-- R178: the code of a format spells that format, and no other code does. -/
theorem fmtOfCode_eq_some_iff {c : BitVec 4} {f : Fmt} : fmtOfCode c.toNat = some f ↔ c = codeOfFmt f := by
  have table : ∀ (c : BitVec 4) (f : Fmt), fmtOfCode c.toNat = some f ↔ c = codeOfFmt f := by
    intro c f
    revert c
    cases f <;> decide
  exact table c f

@[simp] theorem fmtOfCode_codeOfFmt (f : Fmt) : fmtOfCode (codeOfFmt f).toNat = some f :=
  fmtOfCode_eq_some_iff.2 rfl

/-- R177: the number a descriptor is, from its fields. -/
theorem encodeNum_toNat (fop fa fb : BitVec 4) :
    (encodeNum fop fa fb).toNat = fop.toNat * 2 ^ 28 + fa.toNat * 2 ^ 24 + fb.toNat * 2 ^ 20 := by
  change (BitVec.toNat (w := 4 + 4 + 4 + 20) (fop ++ fa ++ fb ++ (0 : BitVec 20))) = _
  simp only [BitVec.toNat_append]
  rw [← Nat.shiftLeft_add_eq_or_of_lt (0 : BitVec 20).isLt, ← Nat.shiftLeft_add_eq_or_of_lt fb.isLt,
    ← Nat.shiftLeft_add_eq_or_of_lt fa.isLt]
  have hzero : (0 : BitVec 20).toNat = 0 := rfl
  simp only [Nat.shiftLeft_eq, hzero]
  omega

theorem numFop_toNat (d : BitVec 32) : (numFop d).toNat = d.toNat / 2 ^ 28 := by
  have hd := d.isLt
  simp only [numFop, BitVec.extractLsb'_toNat, Nat.shiftRight_eq_div_pow]
  omega

theorem numFa_toNat (d : BitVec 32) : (numFa d).toNat = d.toNat / 2 ^ 24 % 2 ^ 4 := by
  simp only [numFa, BitVec.extractLsb'_toNat, Nat.shiftRight_eq_div_pow]

theorem numFb_toNat (d : BitVec 32) : (numFb d).toNat = d.toNat / 2 ^ 20 % 2 ^ 4 := by
  simp only [numFb, BitVec.extractLsb'_toNat, Nat.shiftRight_eq_div_pow]

theorem numLow_toNat (d : BitVec 32) : (numLow d).toNat = d.toNat % 2 ^ 20 := by
  simp only [numLow, BitVec.extractLsb'_toNat, Nat.shiftRight_zero]

section NumFields

variable (fop fa fb : BitVec 4)

@[simp] theorem numFop_encodeNum : numFop (encodeNum fop fa fb) = fop := by
  apply BitVec.eq_of_toNat_eq
  rw [numFop_toNat, encodeNum_toNat]
  omega

@[simp] theorem numFa_encodeNum : numFa (encodeNum fop fa fb) = fa := by
  apply BitVec.eq_of_toNat_eq
  rw [numFa_toNat, encodeNum_toNat]
  omega

@[simp] theorem numFb_encodeNum : numFb (encodeNum fop fa fb) = fb := by
  apply BitVec.eq_of_toNat_eq
  rw [numFb_toNat, encodeNum_toNat]
  omega

@[simp] theorem numLow_encodeNum : numLow (encodeNum fop fa fb) = 0 := by
  apply BitVec.eq_of_toNat_eq
  rw [numLow_toNat, encodeNum_toNat, show (0 : BitVec 20).toNat = 0 from rfl]
  omega

end NumFields

/-- R177: a descriptor with bits 19..0 at 0 is the encoding of its fields. -/
theorem encodeNum_fields_eq {d : BitVec 32} {fop fa fb : BitVec 4} (hfop : (numFop d).toNat = fop.toNat)
    (hfa : numFa d = fa) (hfb : numFb d = fb) (hlow : numLow d = 0) : encodeNum fop fa fb = d := by
  have hd := d.isLt
  have hlow' := congrArg BitVec.toNat hlow
  rw [numLow_toNat, show (0 : BitVec 20).toNat = 0 from rfl] at hlow'
  rw [numFop_toNat] at hfop
  subst hfa hfb
  apply BitVec.eq_of_toNat_eq
  rw [encodeNum_toNat, numFa_toNat, numFb_toNat]
  omega

/-- R177, R178: a descriptor with bits 19..0 at 0 and two assigned codes is the encoding of their formats. -/
theorem encodeNum_codes_eq {d : BitVec 32} {fop : BitVec 4} {fa fb : Fmt} (hfop : (numFop d).toNat = fop.toNat)
    (hfa : fmtOfCode (numFa d).toNat = some fa) (hfb : fmtOfCode (numFb d).toNat = some fb) (hlow : numLow d = 0) :
    encodeNum fop (codeOfFmt fa) (codeOfFmt fb) = d :=
  encodeNum_fields_eq hfop (fmtOfCode_eq_some_iff.1 hfa) (fmtOfCode_eq_some_iff.1 hfb) hlow

/-! ### Decoding a descriptor -/

/-- R180: a descriptor decodes to the operation of its row where bits 19..0 are 0 and R179 admits its formats. -/
theorem decodeNum_eq_ok_iff {d : BitVec 32} {i : Instr} :
    decodeNum d = .ok i ↔ numRow d = some i ∧ numLow d = 0 ∧ i.wf = true := by
  unfold decodeNum
  cases numRow d with
  | none => simp
  | some j =>
    constructor
    · intro h
      dsimp only at h
      split at h <;> cases h
      exact ⟨rfl, ‹_›⟩
    · rintro ⟨⟨⟩, h⟩
      exact if_pos h

/-- R179: the row FX.CONV's formats select is encoded by these formats. -/
theorem encode_convRow (fa fb : Fmt) :
    encode (convRow fa fb) = .num (encodeNum 2 (codeOfFmt fa) (codeOfFmt fb)) := by
  unfold convRow
  split
  case isTrue h => obtain ⟨rfl, rfl⟩ := h; rfl
  split
  case isTrue h => obtain ⟨rfl, rfl⟩ := h; rfl
  rfl

/-- R179: an admitted pair selects the generic row. -/
theorem convRow_of_convPairOk {fa fb : Fmt} (h : convPairOk fa fb = true) : convRow fa fb = .fxConv fa fb := by
  simp only [convPairOk, Bool.and_eq_true, Bool.not_eq_true', decide_eq_false_iff_not] at h
  obtain ⟨⟨-, hq80⟩, hq17⟩ := h
  rw [convRow, if_neg hq80, if_neg hq17]

/-- R177, R179: a descriptor with bits 19..0 at 0 is the encoding of the row its fields select. -/
theorem encode_of_numRow {d : BitVec 32} {i : Instr} (hrow : numRow d = some i) (hlow : numLow d = 0) :
    encode i = .num d := by
  unfold numRow at hrow
  split at hrow <;>
    simp only [Option.bind_eq_some_iff, Option.map_eq_some_iff, Option.ite_none_right_eq_some, reduceCtorEq] at hrow
  case h_1 hfop =>
    obtain ⟨hfb, fa, hfa, rfl⟩ := hrow
    exact congrArg Item.num (encodeNum_fields_eq hfop (fmtOfCode_eq_some_iff.1 hfa) hfb hlow)
  case h_5 hfop =>
    obtain ⟨hfb, fa, hfa, rfl⟩ := hrow
    exact congrArg Item.num (encodeNum_fields_eq hfop (fmtOfCode_eq_some_iff.1 hfa) hfb hlow)
  all_goals obtain ⟨fa, hfa, fb, hfb, rfl⟩ := hrow
  case h_2 hfop => exact congrArg Item.num (encodeNum_codes_eq hfop hfa hfb hlow)
  case h_3 hfop => exact (encode_convRow fa fb).trans (congrArg Item.num (encodeNum_codes_eq hfop hfa hfb hlow))
  case h_4 hfop => exact congrArg Item.num (encodeNum_codes_eq hfop hfa hfb hlow)

/-! ### Decoding a dispatch code (R181) -/

/-- R181: an assigned code is the encoding of its operation. -/
theorem encode_of_decodeDisp {c : BitVec 8} {i : Instr} (h : decodeDisp c = .ok i) :
    i.wf = true ∧ encode i = .disp c := by
  unfold decodeDisp at h
  split at h <;> cases h <;>
    exact ⟨rfl, congrArg Item.disp (BitVec.eq_of_toNat_eq (Eq.symm ‹_›))⟩

/-! ### The two round trips -/

/-- Settles O1: a command's word sets no bit under its mask and gives its fields back, a descriptor's formats are read
back from their codes, and a dispatch code has its own row. -/
theorem decodeOfEncodeIsTheInstruction : Obligations.DecodeOfEncodeIsTheInstruction := by
  intro i hwf
  cases i
  case setEnvAttackFor n v | setEnvAttackTo n v | setEnvDecayFor n v | setEnvSustainAt n v | setEnvReleaseFor n v |
      setOscFreq n v | setOscScale n v =>
    exact decodeCmd_eq_ok_iff.2 ⟨mbzScalar, by simp [cmdRow], encodeCmd_and_mbzScalar _ n v⟩
  case setPattern n e b =>
    exact decodeCmd_eq_ok_iff.2 ⟨mbzPattern, by simp [cmdRow], encodeCmd_and_mbzPattern _ n e b⟩
  case setGatelen n e v =>
    exact decodeCmd_eq_ok_iff.2 ⟨mbzGatelen, by simp [cmdRow], encodeCmd_and_mbzGatelen _ n e v⟩
  case loadWave n h => exact decodeCmd_eq_ok_iff.2 ⟨mbzLoad, by simp [cmdRow], encodeCmd_and_mbzLoad _ n h⟩
  case fxConv fa fb =>
    exact decodeNum_eq_ok_iff.2 ⟨by simp [numRow, convRow_of_convPairOk hwf], numLow_encodeNum _ _ _, hwf⟩
  case fxRaw | fxMul | fxSadd | fxRecip => exact decodeNum_eq_ok_iff.2 ⟨by simp [numRow], numLow_encodeNum _ _ _, hwf⟩
  all_goals rfl

/-- Settles O2: on each of the three paths the row that answers fixes every bit of the item. -/
theorem decodedItemIsTheEncoding : Obligations.DecodedItemIsTheEncoding := by
  intro it i h
  cases it with
  | cmd w =>
    obtain ⟨m, hrow, hm⟩ := decodeCmd_eq_ok_iff.1 h
    exact encode_of_cmdRow hrow hm
  | num d =>
    obtain ⟨hrow, hlow, hwf⟩ := decodeNum_eq_ok_iff.1 h
    exact ⟨hwf, encode_of_numRow hrow hlow⟩
  | disp c => exact encode_of_decodeDisp h

end Sys2Proof

namespace Sys2Proof.Machine

/-! ### The words of the spec's examples -/

/-- R170: the bits of an instruction's encoding, laid out as a table word, are read back as the instruction. -/
theorem decodeTableWord_of_encode {nbits w : Nat} {i : Instr} (hwf : i.wf = true)
    (hit : itemOfTable nbits w = some (encode i)) : decodeTableWord nbits w = some i := by
  simp only [decodeTableWord, hit, decodeOfEncodeIsTheInstruction i hwf, Except.toOption]

/-- Settles O3: each word is the encoding of its instruction. -/
theorem exampleWordsDecode : Obligations.ExampleWordsDecode :=
  ⟨decodeTableWord_of_encode rfl (by decide), decodeTableWord_of_encode rfl (by decide),
    decodeTableWord_of_encode rfl (by decide), decodeTableWord_of_encode rfl (by decide),
    decodeTableWord_of_encode rfl (by decide), decodeTableWord_of_encode rfl (by decide),
    decodeTableWord_of_encode rfl (by decide)⟩

/-! ### Reserved codes (R180, R181) -/

/-- R179, R180: a term no descriptor spells has no meaning. -/
theorem exec_of_not_wf {i : Instr} {s : State} (h : i.wf = false) : exec i s = .refused .reservedNum := by
  cases i
  case fxConv fa fb =>
    have hp : convPairOk fa fb = false := h
    simp [exec, execFxConv, hp]
  case fxSadd fa fb =>
    have hp : fa ≠ fb := of_decide_eq_false h
    simp [exec, execFxSadd, hp]
  case fxRecip fa =>
    have hp : recipFmtOk fa = false := h
    simp [exec, execFxRecip, hp]
  all_goals cases h

/-- R180: a descriptor that decodes to nothing is reserved. -/
theorem decodeNum_error {d : BitVec 32} {e : DecodeError} (h : decodeNum d = .error e) : e = .reservedNum := by
  unfold decodeNum at h
  split at h
  · cases h; rfl
  · split at h <;> cases h
    rfl

/-- R180: a descriptor is refused, or it is the encoding of a well-formed operation. -/
theorem runItem_num_cases (d : BitVec 32) (s : State) :
    runItem (.num d) s = .refused .reservedNum ∨ ∃ i : Instr, i.wf = true ∧ encode i = .num d := by
  cases h : decodeNum d with
  | ok i => exact .inr ⟨i, decodedItemIsTheEncoding (.num d) i h⟩
  | error e =>
    obtain rfl := decodeNum_error h
    exact .inl (by simp only [runItem, decode, h, issueError])

/-- R180: the fields no operation has: a reserved FOP, a reserved code, a bit in 19..0, or formats that R179 does not
admit for the operation. -/
def ReservedFields (fop fa fb low : Nat) : Prop :=
  5 ≤ fop ∨ 8 ≤ fa ∨ 8 ≤ fb ∨ low ≠ 0 ∨ (fop = 3 ∧ fa ≠ fb) ∨ (fop = 2 ∧ fa = fb) ∨
    (fop = 4 ∧ fa ∉ [1, 2, 7]) ∨ ((fop = 0 ∨ fop = 4) ∧ fb ≠ 0)

/-- R178: codes 8 to 15 are reserved. -/
theorem codeOfFmt_toNat_lt (f : Fmt) : (codeOfFmt f).toNat < 8 := by
  cases f <;> decide

theorem codeOfFmt_toNat_inj {fa fb : Fmt} : (codeOfFmt fa).toNat = (codeOfFmt fb).toNat ↔ fa = fb := by
  refine ⟨fun h => ?_, fun h => h ▸ rfl⟩
  have hcode := fmtOfCode_codeOfFmt fa
  rw [h, fmtOfCode_codeOfFmt] at hcode
  exact (Option.some.inj hcode).symm

/-- R179: FX.CONV's formats differ. -/
theorem ne_of_convPairOk {fa fb : Fmt} (h : convPairOk fa fb = true) : fa ≠ fb := by
  rintro rfl
  simp [convPairOk] at h

/-- R179: FX.RECIP takes codes 1, 2 and 7. -/
theorem recipFmtOk_iff {f : Fmt} :
    recipFmtOk f = true ↔ (codeOfFmt f).toNat = 1 ∨ (codeOfFmt f).toNat = 2 ∨ (codeOfFmt f).toNat = 7 := by
  cases f <;> decide

/-- R177: which fields are reserved in an encoded descriptor, whose bits 19..0 are 0. -/
theorem reservedFields_encodeNum (fop fa fb : BitVec 4) :
    ReservedFields (numFop (encodeNum fop fa fb)).toNat (numFa (encodeNum fop fa fb)).toNat
        (numFb (encodeNum fop fa fb)).toNat (numLow (encodeNum fop fa fb)).toNat ↔
      5 ≤ fop.toNat ∨ 8 ≤ fa.toNat ∨ 8 ≤ fb.toNat ∨ (fop.toNat = 3 ∧ fa.toNat ≠ fb.toNat) ∨
        (fop.toNat = 2 ∧ fa.toNat = fb.toNat) ∨
        (fop.toNat = 4 ∧ ¬ (fa.toNat = 1 ∨ fa.toNat = 2 ∨ fa.toNat = 7)) ∨
        ((fop.toNat = 0 ∨ fop.toNat = 4) ∧ fb.toNat ≠ 0) := by
  simp [ReservedFields]

/-- R177 to R179: the encoding of a well-formed operation has no reserved fields. -/
theorem not_reservedFields_of_encode {i : Instr} {d : BitVec 32} (hwf : i.wf = true) (henc : encode i = .num d) :
    ¬ ReservedFields (numFop d).toNat (numFa d).toNat (numFb d).toNat (numLow d).toNat := by
  cases i
  case fxRaw fa =>
    cases henc
    have ha := codeOfFmt_toNat_lt fa
    rw [reservedFields_encodeNum]
    bv_omega
  case fxMul fa fb =>
    cases henc
    have ha := codeOfFmt_toNat_lt fa
    have hb := codeOfFmt_toNat_lt fb
    rw [reservedFields_encodeNum]
    bv_omega
  case fxConvQ88Q80 | fxConvQ88Q17 =>
    cases henc
    rw [reservedFields_encodeNum]
    decide
  case fxConv fa fb =>
    cases henc
    have ha := codeOfFmt_toNat_lt fa
    have hb := codeOfFmt_toNat_lt fb
    have hcode := codeOfFmt_toNat_inj.not.2 (ne_of_convPairOk hwf)
    rw [reservedFields_encodeNum]
    bv_omega
  case fxSadd fa fb =>
    cases henc
    obtain rfl : fa = fb := of_decide_eq_true hwf
    have ha := codeOfFmt_toNat_lt fa
    rw [reservedFields_encodeNum]
    bv_omega
  case fxRecip fa =>
    cases henc
    have ha := codeOfFmt_toNat_lt fa
    have hcode := recipFmtOk_iff.1 hwf
    rw [reservedFields_encodeNum]
    bv_omega
  all_goals cases henc

/-- R181: a dispatch code decodes, and is then the encoding of an operation, or is reserved. -/
theorem decodeDisp_cases (c : BitVec 8) : decodeDisp c = .error .reservedDisp ∨ ∃ i : Instr, encode i = .disp c := by
  cases h : decodeDisp c with
  | ok i => exact .inr ⟨i, (encode_of_decodeDisp h).2⟩
  | error e =>
    unfold decodeDisp at h
    split at h <;> cases h
    exact .inl rfl

/-- R181: the codes of the dispatch map. -/
theorem toNat_mem_of_encode_disp {i : Instr} {c : BitVec 8} (h : encode i = .disp c) :
    c.toNat ∈ [0x00, 0x01, 0x02, 0x03, 0x04, 0x10, 0x11, 0x20, 0x21, 0x30, 0x31, 0x40, 0x41, 0x50, 0x51, 0x60,
      0x61] := by
  cases i <;> cases h <;> decide

/-- Settles O5: an item that is not refused is the encoding of a well-formed operation, whose code is assigned and whose
fields are not reserved; and the meaning of an ill-formed term is a refusal. -/
theorem reservedCodesAreRefused : Obligations.ReservedCodesAreRefused := by
  refine ⟨fun c s hc => ?_, fun i s hwf => exec_of_not_wf hwf, fun d s hd => ?_⟩
  · rcases decodeDisp_cases c with h | ⟨i, henc⟩
    · simp only [runItem, decode, h, issueError]
    · exact absurd (toNat_mem_of_encode_disp henc) hc
  · rcases runItem_num_cases d s with h | ⟨i, hwf, henc⟩
    · exact h
    · exact absurd hd (not_reservedFields_of_encode hwf henc)

/-! ### One node replaced -/

@[simp] theorem putNode_nodes (s : State) (i : Nat) (m : Node) :
    (Claims.putNode s i m).nodes = s.nodes.set i m := rfl

/-- A node replaced by itself. -/
theorem putNode_self {s : State} {i : Nat} {n : Node} (h : s.nodes[i]? = some n) : Claims.putNode s i n = s := by
  obtain ⟨hlt, rfl⟩ := List.getElem?_eq_some_iff.1 h
  simp only [Claims.putNode, List.set_getElem_self]

@[simp] theorem putNode_putNode (s : State) (i : Nat) (m m' : Node) :
    Claims.putNode (Claims.putNode s i m) i m' = Claims.putNode s i m' := by
  simp only [Claims.putNode, List.set_set]

/-- The node put in place of another. -/
theorem putNode_getElem? {s : State} {i : Nat} {n : Node} (h : s.nodes[i]? = some n) (m : Node) :
    (Claims.putNode s i m).nodes[i]? = some m := by
  obtain ⟨hlt, -⟩ := List.getElem?_eq_some_iff.1 h
  rw [putNode_nodes, List.getElem?_set_self hlt]

/-! ### SET_PATTERN_MASK (R184) -/

/-- R492: SET_PATTERN on a SEQ node writes one bit of its PATTERN. -/
theorem applyCmd_setPattern {node elem : BitVec 8} {b : Bool} {s : State} {n : Node} {q : SeqSt}
    (hn : s.nodes[node.toNat]? = some n) (hb : n.body = .seq q) (he : elem.toNat ≤ 15) :
    applyCmd (.setPattern node elem b) s = Claims.putNode s node.toNat
      { n with body := .seq { q with pattern := patWrite q.pattern elem.toNat b } } := by
  have hk : nodeKind n = .seq := by simp [nodeKind, hb]
  simp only [applyCmd, applySetPattern, writeStep, onTarget_of hn hk, if_neg (Nat.not_lt.2 he), mapSeq, hb]
  rfl

/-- R184: PATTERN after the first k commands of SET_PATTERN_MASK. -/
def maskBits (m p : Word) (k : Nat) : Word := (List.range k).foldl (fun p i => patWrite p i (m.getLsbD i)) p

theorem maskBits_succ (m p : Word) (k : Nat) : maskBits m p (k + 1) = patWrite (maskBits m p k) k (m.getLsbD k) := by
  simp only [maskBits, List.range_succ, List.foldl_append, List.foldl_cons, List.foldl_nil]

/-- R123: the bits written are the mask's, the others stay. -/
theorem patRead_maskBits (m p : Word) {k j : Nat} (hk : k ≤ 16) (hj : j < 16) :
    patRead (maskBits m p k) j = if j < k then m.getLsbD j else patRead p j := by
  induction k with
  | zero => rfl
  | succ k ih =>
    rw [maskBits_succ, patRead_patWrite _ _ _ _ (by omega) hj, ih (by omega)]
    by_cases hjk : j = k
    · simp [hjk]
    · simp only [if_neg hjk, show j < k + 1 ↔ j < k by omega]

/-- R184: sixteen bits written leave nothing of the old PATTERN. -/
theorem maskBits_all (m p : Word) : maskBits m p 16 = m := by
  refine BitVec.eq_of_getLsbD_eq fun j hj => ?_
  have h := patRead_maskBits m p (le_refl 16) hj
  rwa [if_pos hj] at h

/-- R184: the first k commands of SET_PATTERN_MASK write the first k bits. -/
theorem foldl_setPattern {node : BitVec 8} {s : State} {n : Node} {q : SeqSt} (m : Word)
    (hn : s.nodes[node.toNat]? = some n) (hb : n.body = .seq q) {k : Nat} (hk : k ≤ 16) :
    (List.range k).foldl (fun t i => applyCmd (.setPattern node (BitVec.ofNat 8 i) (m.getLsbD i)) t) s =
      Claims.putNode s node.toNat { n with body := .seq { q with pattern := maskBits m q.pattern k } } := by
  induction k with
  | zero =>
    have hself : ({ n with body := .seq { q with pattern := maskBits m q.pattern 0 } } : Node) = n := by
      rw [show maskBits m q.pattern 0 = q.pattern from rfl, ← hb]
    rw [hself, putNode_self hn]
    rfl
  | succ k ih =>
    have helem : (BitVec.ofNat 8 k).toNat = k := by rw [BitVec.toNat_ofNat]; omega
    rw [List.range_succ, List.foldl_append, ih (by omega), List.foldl_cons, List.foldl_nil,
      applyCmd_setPattern (putNode_getElem? hn _) rfl (by omega), helem, putNode_putNode, maskBits_succ]

/-- Settles O17: the sixteen commands write the mask's bits one by one, and each of them writes the same node's PATTERN
alone. -/
theorem patternMaskWritesThePattern : Obligations.PatternMaskWritesThePattern := by
  intro node m s n q hn hb
  rw [expandPatternMask, List.foldl_map, foldl_setPattern m hn hb (le_refl 16), maskBits_all]

/-! ### The STEP and TICK of a kind -/

/-- An operation of the nodes of kind k, and of no other. -/
def ofKind (k : Kind) (f : Node → Node) (n : Node) : Option Node := if nodeKind n = k then some (f n) else none

theorem asEnvStep_eq (c : Config) (i : Nat) : asEnvStep c = ofKind .env (stepNode c i) := by
  funext n; cases hb : n.body <;> simp [asEnvStep, ofKind, nodeKind, stepNode, hb]

theorem asOscStep_eq (c : Config) (i : Nat) : asOscStep c = ofKind .osc (stepNode c i) := by
  funext n; cases hb : n.body <;> simp [asOscStep, ofKind, nodeKind, stepNode, hb]

theorem asSeqStep_eq (c : Config) (i : Nat) : asSeqStep = ofKind .seq (stepNode c i) := by
  funext n; cases hb : n.body <;> simp [asSeqStep, ofKind, nodeKind, stepNode, hb]

theorem asSeqTick_eq : asSeqTick = ofKind .seq tickNode := by
  funext n; cases hb : n.body <;> simp [asSeqTick, ofKind, nodeKind, tickNode, hb]

theorem asVcaStep_eq (c : Config) (i : Nat) : asVcaStep c = ofKind .vca (stepNode c i) := by
  funext n; cases hb : n.body <;> simp [asVcaStep, ofKind, nodeKind, stepNode, hb]

theorem asMixStep_eq (c : Config) (i : Nat) : asMixStep = ofKind .mix (stepNode c i) := by
  funext n; cases hb : n.body <;> simp [asMixStep, ofKind, nodeKind, stepNode, hb]

theorem asRevStep_eq (c : Config) (i : Nat) : asRevStep (tapsOf c i) = ofKind .rev (stepNode c i) := by
  funext n; cases hb : n.body <;> simp [asRevStep, ofKind, nodeKind, stepNode, hb]

/-- Log 14: an operation of kind k on a node of another kind, or on none, is refused. -/
theorem onOperandNode_ofKind_refused {k : Kind} {f : Node → Node} {s : State}
    (h : ∀ n, s.nodes[s.opr.node]? = some n → nodeKind n ≠ k) : onOperandNode (ofKind k f) s = .refused .wrongKind := by
  cases hn : s.nodes[s.opr.node]? with
  | none => simp only [onOperandNode, operandNode, hn, Option.bind_none]
  | some n => simp only [onOperandNode, operandNode, hn, Option.bind_some, ofKind, if_neg (h n hn)]

/-- An operation of kind k on a node of its kind replaces that node. -/
theorem onOperandNode_ofKind {k : Kind} {f : Node → Node} {s : State} {n : Node} (hn : s.nodes[s.opr.node]? = some n)
    (hk : nodeKind n = k) : onOperandNode (ofKind k f) s = .next (Claims.putNode s s.opr.node (f n)) :=
  onOperandNode_of hn (if_pos hk)

/-- R181: the STEP instruction of a kind. -/
def stepInstr : Kind → Instr
  | .env => .envStep
  | .osc => .oscStep
  | .seq => .seqStep
  | .vca => .vcaStep
  | .mix => .mixStep
  | .rev => .revStep

/-- R181: the TICK instruction of a kind. -/
def tickInstr : Kind → Instr
  | .env => .envTick
  | .osc => .oscTick
  | .seq => .seqTick
  | .vca => .vcaTick
  | .mix => .mixTick
  | .rev => .revTick

/-- R181, R450 (b): the STEP instruction of a kind is the engine's STEP, on the nodes of that kind. -/
theorem exec_stepInstr (k : Kind) (s : State) :
    exec (stepInstr k) s = onOperandNode (ofKind k (stepNode s.cfg s.opr.node)) s := by
  cases k
  case env => rw [← asEnvStep_eq]; rfl
  case osc => rw [← asOscStep_eq]; rfl
  case seq => rw [← asSeqStep_eq]; rfl
  case vca => rw [← asVcaStep_eq]; rfl
  case mix => rw [← asMixStep_eq]; rfl
  case rev => rw [← asRevStep_eq]; rfl

/-- R181, R371: SEQ.TICK is the engine's TICK, on the SEQ nodes. -/
theorem exec_seqTick (s : State) : exec .seqTick s = onOperandNode (ofKind .seq tickNode) s := by
  rw [← asSeqTick_eq]; rfl

/-- R264: the TICK instruction of any other kind does nothing. -/
theorem exec_tickInstr_of_ne_seq {k : Kind} (h : k ≠ .seq) (s : State) : exec (tickInstr k) s = .next s := by
  cases k
  case seq => exact absurd rfl h
  all_goals rfl

/-- R450 (c): the TICK instruction of a node's kind is the engine's TICK of that node. -/
theorem exec_tickInstr {s : State} {n : Node} (hn : s.nodes[s.opr.node]? = some n) :
    exec (tickInstr (nodeKind n)) s = .next (Claims.putNode s s.opr.node (tickNode n)) := by
  by_cases hk : nodeKind n = .seq
  · rw [hk]
    exact (exec_seqTick s).trans (onOperandNode_ofKind hn hk)
  · rw [exec_tickInstr_of_ne_seq hk, tickNode_of_ne_seq hk, putNode_self hn]

/-- Settles O48: a STEP, and SEQ.TICK, act on the operand node where it is of their kind and are refused elsewhere; the
other TICKs leave the node as the engine's TICK does. -/
theorem engineStepsEachNodeByItsInstruction : Obligations.EngineStepsEachNodeByItsInstruction := by
  refine ⟨fun s p hp hkind => ?_, fun s n hn => ⟨?_, ?_⟩⟩
  · have hstep : p.2 = stepInstr p.1 ∨ p = (.seq, .seqTick) := by
      simp only [List.mem_cons, List.not_mem_nil, or_false] at hp
      rcases hp with rfl | rfl | rfl | rfl | rfl | rfl | rfl <;> simp [stepInstr]
    rcases hstep with h | rfl
    · rw [h, exec_stepInstr]
      exact onOperandNode_ofKind_refused hkind
    · rw [exec_seqTick]
      exact onOperandNode_ofKind_refused hkind
  · exact (exec_stepInstr (nodeKind n) s).trans (onOperandNode_ofKind hn rfl)
  · exact exec_tickInstr hn

/-! ### A line's words decode to its commands (R184) -/

/-- The command word of an instruction, where it has one (R170). -/
def wordOf (i : Instr) : Option CmdWord :=
  match encode i with
  | .cmd w => some w
  | .num _ => none
  | .disp _ => none

theorem wordOf_of_encode {i : Instr} {w : CmdWord} (h : encode i = .cmd w) : wordOf i = some w := by
  simp only [wordOf, h]

/-- R184: the words of a line are those of its commands. -/
theorem assembleWords_eq (c : Config) (line : String) :
    assembleWords c line = (assembleLine c line).map (List.filterMap wordOf) := rfl

/-- R184: the words of commands decode, in order, to them. -/
theorem map_decodeCmd_filterMap_wordOf {is : List Instr} (h : ∀ i ∈ is, i.wf = true ∧ ∃ w, encode i = .cmd w) :
    (is.filterMap wordOf).map decodeCmd = is.map Except.ok := by
  induction is with
  | nil => rfl
  | cons i is ih =>
    obtain ⟨⟨hwf, w, hw⟩, his⟩ := List.forall_mem_cons.1 h
    have hdec : decode (encode i) = .ok i := decodeOfEncodeIsTheInstruction i hwf
    rw [hw] at hdec
    rw [List.filterMap_cons_some (wordOf_of_encode hw), List.map_cons, List.map_cons, ih his, ← hdec]
    rfl

/-- R183: a line that assembles is a mnemonic with its operands. -/
theorem assembleCmd_of_assembleLine {c : Config} {line : String} {is : List Instr} (h : assembleLine c line = some is) :
    ∃ m ws, assembleCmd c m ws = some is := by
  unfold assembleLine at h
  split at h
  · obtain ⟨ws, -, hws⟩ := Option.bind_eq_some_iff.1 h
    exact ⟨_, ws, hws⟩
  · cases h

/-- R184: every line that assembles gives words that decode to its commands. -/
theorem assembles_of_assembleLine {c : Config} {line : String} {is : List Instr} (h : assembleLine c line = some is) :
    Claims.Assembles c line is := by
  obtain ⟨m, ws, hcmd⟩ := assembleCmd_of_assembleLine h
  exact ⟨is.filterMap wordOf, by rw [assembleWords_eq, h]; rfl,
    map_decodeCmd_filterMap_wordOf (assembleCmd_commands hcmd)⟩

/-! ### Numbers (R183) -/

/-- R183: digits are a number and make a word. -/
theorem natOfDigits_of_digits {base n : Nat} {cs : List Char} (hb : base ≤ 16) (h : Claims.Digits base cs n) :
    natOfDigits base cs = some n := by
  obtain ⟨hne, ds, rfl, hds⟩ := h
  rw [natOfDigits, if_neg (by simpa using hne), digitsValue_of hb hds]

/-- R183: no digit is a space, a mark, a minus or an `x`. -/
theorem plain_of_digits {base n : Nat} {cs : List Char} (hb : base ≤ 16) (h : Claims.Digits base cs n) :
    ∀ ch ∈ cs, plainChar ch ∧ ch ≠ '-' ∧ ch ≠ 'x' := by
  obtain ⟨-, ds, -, hds⟩ := h
  clear n
  induction hds with
  | nil => simp
  | cons hd _ ih =>
    refine List.forall_mem_cons.2 ⟨(digitValue_of hb hd.1 hd.2).2, ih⟩

/-- R183: a spelled number is one word of a line. -/
theorem plainWord_of_spells {w : String} {z : Int} (h : Claims.Spells w z) : plainWord w := by
  rcases h with ⟨n, hd, -⟩ | ⟨cs, n, hw, hd, -⟩ | ⟨cs, n, hw, hd, -⟩
  · exact ⟨hd.1, fun ch hch => (plain_of_digits (by decide) hd ch hch).1⟩
  · have hcs := fun ch hch => (plain_of_digits (by decide) hd ch hch).1
    refine ⟨by simp [hw], ?_⟩
    rw [hw]
    exact List.forall_mem_cons.2 ⟨by decide, hcs⟩
  · have hcs := fun ch hch => (plain_of_digits (by decide) hd ch hch).1
    refine ⟨by simp [hw], ?_⟩
    rw [hw]
    exact List.forall_mem_cons.2 ⟨by decide, List.forall_mem_cons.2 ⟨by decide, hcs⟩⟩

/-- R183: a spelled number is read as that number. -/
theorem parseInt_of_spells {w : String} {z : Int} (h : Claims.Spells w z) : parseInt w = some z := by
  rcases h with ⟨n, hd, rfl⟩ | ⟨cs, n, hw, hd, rfl⟩ | ⟨cs, n, hw, hd, rfl⟩
  · have hplain := plain_of_digits (by decide) hd
    unfold parseInt
    split
    case h_1 cs hw => exact absurd rfl (hplain '-' (by simp [hw])).2.1
    case h_2 cs hw => exact absurd rfl (hplain 'x' (by simp [hw])).2.2
    case h_3 => rw [natOfDigits_of_digits (by decide) hd]; rfl
  · simp only [parseInt, hw, natOfDigits_of_digits (by decide) hd]
    rfl
  · simp only [parseInt, hw, natOfDigits_of_digits (by decide) hd]
    rfl

section Operands

variable {w : String} {z : Int}

theorem parseNat_of_spells (h : Claims.Spells w z) (hz : 0 ≤ z) : parseNat w = some z.toNat := by
  rw [parseNat, parseInt_of_spells h, Option.bind_some, if_pos hz]

/-- The bits of a number that is not negative. -/
theorem ofNat_toNat_eq_ofInt (k : Nat) (hz : 0 ≤ z) : BitVec.ofNat k z.toNat = BitVec.ofInt k z := by
  rw [← BitVec.ofInt_natCast, Int.toNat_of_nonneg hz]

theorem parseWord_of_spells (h : Claims.Spells w z) (hz : -32768 ≤ z ∧ z ≤ 65535) :
    parseWord w = some (BitVec.ofInt 16 z) := by
  rw [parseWord, parseInt_of_spells h, Option.bind_some, if_pos hz]

theorem parseU16_of_spells (h : Claims.Spells w z) (hz : 0 ≤ z ∧ z ≤ 65535) :
    parseU16 w = some (BitVec.ofInt 16 z) := by
  rw [parseU16, parseNat_of_spells h hz.1, Option.bind_some, if_pos (by omega), ofNat_toNat_eq_ofInt 16 hz.1]

theorem parseElem_of_spells (h : Claims.Spells w z) (h0 : 0 ≤ z) (hz : z ≤ 255) :
    parseElem w = some (BitVec.ofInt 8 z) := by
  rw [parseElem, parseNat_of_spells h h0, Option.bind_some, if_pos (by omega), ofNat_toNat_eq_ofInt 8 h0]

theorem parseHandle_of_spells (h : Claims.Spells w z) (h0 : 0 ≤ z) (hz : z < 2 ^ 32) :
    parseHandle w = some (BitVec.ofInt 32 z) := by
  rw [parseHandle, parseNat_of_spells h h0, Option.bind_some, if_pos (by omega), ofNat_toNat_eq_ofInt 32 h0]

theorem parseBit_of_spells (h : Claims.Spells w z) (hz : z = 0 ∨ z = 1) : parseBit w = some (decide (z = 1)) := by
  rw [parseBit, parseNat_of_spells h (by omega), Option.bind_some]
  rcases hz with rfl | rfl <;> rfl

end Operands

/-! ### Node words (R183) -/

theorem plainWord_of_nodeWord {c : Config} {w : String} {k : BitVec 8} (h : Claims.NodeWord c w k) : plainWord w := by
  obtain ⟨hne, hmarks, -⟩ := h
  refine ⟨hne, fun ch hch => ?_⟩
  have hno := hmarks ch hch
  simp only [List.mem_cons, List.not_mem_nil, or_false, not_or] at hno
  obtain ⟨hsp, hcomma, hl, hr, heq, hcolon⟩ := hno
  exact ⟨hsp, by simp only [tokenOfChar, if_neg hcomma, if_neg hl, if_neg hr, if_neg heq, if_neg hcolon]⟩

/-- R183: a name is resolved to the first node so named. -/
theorem nodeIndex_of_first {c : Config} {w : String} {k : Nat} {nc : NodeCfg} (hk : c.nodes[k]? = some nc)
    (hname : nc.name = w) (hfirst : ∀ j, j < k → ∀ nc', c.nodes[j]? = some nc' → nc'.name ≠ w) :
    nodeIndex c w = some k := by
  obtain ⟨hlt, hget⟩ := List.getElem?_eq_some_iff.1 hk
  refine List.findIdx?_eq_some_iff_getElem.2 ⟨hlt, by simp [hget, hname], fun j hj => ?_⟩
  simpa using hfirst j hj _ (List.getElem?_eq_getElem _)

theorem nodeIndex_of_unnamed {c : Config} {w : String} (h : ∀ nc ∈ c.nodes, nc.name ≠ w) : nodeIndex c w = none :=
  List.findIdx?_eq_none_iff.2 fun nc hnc => by simpa using h nc hnc

/-- R183: a node word is read as the index of its node. -/
theorem parseNode_of_nodeWord {c : Config} {w : String} {k : BitVec 8} (h : Claims.NodeWord c w k) :
    parseNode c w = some k := by
  have hk := k.isLt
  have hle : k.toNat ≤ 255 := by omega
  obtain ⟨-, -, ⟨nc, hnc, hname, hfirst⟩ | ⟨hnone, cs, hw, hd⟩⟩ := h
  · simp only [parseNode, nodeIndex_of_first hnc hname hfirst, Option.bind_some, if_pos hle, BitVec.ofNat_toNat,
      BitVec.setWidth_eq]
  · simp only [parseNode, nodeIndex_of_unnamed hnone, hw, natOfDigits_of_digits (by decide) hd, Option.bind_some,
      if_pos hle, BitVec.ofNat_toNat, BitVec.setWidth_eq]

/-! ### Lines -/

/-- A character of the mnemonics: a capital letter or an underscore. -/
def mnemonicChar (ch : Char) : Bool := ch == '_' || (decide ('A' ≤ ch) && decide (ch ≤ 'Z'))

/-- A word of such characters, as the mnemonics of R183 and R184 are. -/
def isMnemonic (m : String) : Bool := !m.toList.isEmpty && m.toList.all mnemonicChar

theorem plainChar_of_mnemonicChar {ch : Char} (h : mnemonicChar ch = true) : plainChar ch := by
  have hne : ∀ d : Char, mnemonicChar d = false → ch ≠ d := by
    rintro d hd rfl
    rw [h] at hd
    cases hd
  exact ⟨hne ' ' rfl, by
    simp only [tokenOfChar, if_neg (hne ',' rfl), if_neg (hne '(' rfl), if_neg (hne ')' rfl), if_neg (hne '=' rfl),
      if_neg (hne ':' rfl)]⟩

theorem plainWord_of_isMnemonic {m : String} (h : isMnemonic m = true) : plainWord m := by
  simp only [isMnemonic, Bool.and_eq_true, Bool.not_eq_true', List.isEmpty_eq_false_iff, List.all_eq_true] at h
  exact ⟨h.1, fun ch hch => plainChar_of_mnemonicChar (h.2 ch hch)⟩

section Lines

variable {c : Config} {m nw w1 w2 w3 w4 w5 : String} {k : BitVec 8} {z1 z2 z3 z4 z5 : Int} {is : List Instr}

/-- R183: a line of a mnemonic, a node and a number. -/
theorem assembles_two (hm : isMnemonic m = true) (hn : Claims.NodeWord c nw k) (h1 : Claims.Spells w1 z1)
    (h : assembleCmd c m [nw, w1] = some is) : Claims.Assembles c (m ++ " " ++ nw ++ ", " ++ w1) is := by
  refine assembles_of_assembleLine ((assembleLine_words [nw] w1 (plainWord_of_isMnemonic hm) ?_
    (plainWord_of_spells h1) (by simp)).trans h)
  simp only [List.forall_mem_cons]
  exact ⟨plainWord_of_nodeWord hn, List.forall_mem_nil _⟩

/-- R183: a line of a mnemonic, a node and two numbers. -/
theorem assembles_three (hm : isMnemonic m = true) (hn : Claims.NodeWord c nw k) (h1 : Claims.Spells w1 z1)
    (h2 : Claims.Spells w2 z2) (h : assembleCmd c m [nw, w1, w2] = some is) :
    Claims.Assembles c (m ++ " " ++ nw ++ ", " ++ w1 ++ ", " ++ w2) is := by
  refine assembles_of_assembleLine ((assembleLine_words [nw, w1] w2 (plainWord_of_isMnemonic hm) ?_
    (plainWord_of_spells h2) (by simp)).trans h)
  simp only [List.forall_mem_cons]
  exact ⟨plainWord_of_nodeWord hn, plainWord_of_spells h1, List.forall_mem_nil _⟩

/-- R184: a line of a mnemonic, a node and five numbers. -/
theorem assembles_six (hm : isMnemonic m = true) (hn : Claims.NodeWord c nw k) (h1 : Claims.Spells w1 z1)
    (h2 : Claims.Spells w2 z2) (h3 : Claims.Spells w3 z3) (h4 : Claims.Spells w4 z4) (h5 : Claims.Spells w5 z5)
    (h : assembleCmd c m [nw, w1, w2, w3, w4, w5] = some is) :
    Claims.Assembles c (m ++ " " ++ nw ++ ", " ++ w1 ++ ", " ++ w2 ++ ", " ++ w3 ++ ", " ++ w4 ++ ", " ++ w5) is := by
  refine assembles_of_assembleLine ((assembleLine_words [nw, w1, w2, w3, w4] w5 (plainWord_of_isMnemonic hm) ?_
    (plainWord_of_spells h5) (by simp)).trans h)
  simp only [List.forall_mem_cons]
  exact ⟨plainWord_of_nodeWord hn, plainWord_of_spells h1, plainWord_of_spells h2, plainWord_of_spells h3,
    plainWord_of_spells h4, List.forall_mem_nil _⟩

end Lines

/-- Settles O18: the words of a line decode by O1, and each form of line is read word by word: the mnemonic, the node
and the numbers. -/
theorem assembledWordsDecodeToTheLine : Obligations.AssembledWordsDecodeToTheLine := by
  refine ⟨fun c line is h => assembles_of_assembleLine h, ?_⟩
  intro c nw k w1 w2 w3 w4 w5 z1 z2 z3 z4 z5 hn h1 h2 h3 h4 h5
  have hk := parseNode_of_nodeWord hn
  dsimp only
  refine ⟨fun u1 p hp => ?_, fun l1 p hp => ?_, fun p1 b1 => ?_, fun p1 b1 => ⟨fun b2 => ?_, fun u2 => ?_⟩,
    fun l1 l2 => ?_, fun u1 l2 u3 l4 u5 => ?_⟩
  · have hv := parseU16_of_spells h1 u1
    simp only [List.mem_cons, List.not_mem_nil, or_false] at hp
    rcases hp with rfl | rfl | rfl | rfl | rfl <;> dsimp only <;>
      exact assembles_two rfl hn h1 (by simp [assembleCmd, hk, hv, expandPatternMask, expandGatelenAll])
  · have hv := parseWord_of_spells h1 l1
    simp only [List.mem_cons, List.not_mem_nil, or_false] at hp
    rcases hp with rfl | rfl | rfl | rfl <;> dsimp only <;>
      exact assembles_two rfl hn h1 (by simp [assembleCmd, hk, hv])
  · have hv := parseHandle_of_spells h1 p1 b1
    exact assembles_two (m := "LOAD_WAVE") rfl hn h1 (by simp [assembleCmd, hk, hv])
  · have he := parseElem_of_spells h1 p1 b1
    have hb := parseBit_of_spells h2 b2
    exact assembles_three (m := "SET_PATTERN") rfl hn h1 h2 (by simp [assembleCmd, hk, he, hb])
  · have he := parseElem_of_spells h1 p1 b1
    have hv := parseU16_of_spells h2 u2
    exact assembles_three (m := "SET_GATELEN") rfl hn h1 h2 (by simp [assembleCmd, hk, he, hv])
  · have hnote := parseWord_of_spells h1 l1
    have hdepth := parseWord_of_spells h2 l2
    exact assembles_three (m := "SET_OSC") rfl hn h1 h2 (by simp [assembleCmd, hk, hnote, hdepth, expandOsc])
  · have hv1 := parseU16_of_spells h1 u1
    have hv2 := parseWord_of_spells h2 l2
    have hv3 := parseU16_of_spells h3 u3
    have hv4 := parseWord_of_spells h4 l4
    have hv5 := parseU16_of_spells h5 u5
    exact assembles_six (m := "SET_ENV_ADSR") rfl hn h1 h2 h3 h4 h5
      (by simp [assembleCmd, hk, hv1, hv2, hv3, hv4, hv5, expandAdsr])

end Sys2Proof.Machine
end

section
/-! PROOFS. The numeric family: the words the numeric unit returns, and what each of its operations leaves in the
unit's result (40_numeric R221 to R234). -/

namespace Sys2Proof.Machine

/-! ### Formats (R178) -/

theorem fmtWidth_pos (f : Fmt) : 0 < fmtWidth f := by
  cases f <;> decide

theorem fmtWidth_le (f : Fmt) : fmtWidth f ≤ 32 := by
  cases f <;> decide

/-- A result of any format fits the 64-bit word that holds it (log 24). -/
theorem fmtWidth_le_64 (f : Fmt) : fmtWidth f ≤ 64 := (fmtWidth_le f).trans (by decide)

/-! ### The words of a result (R16) -/

/-- R16: `trunc_W` is the W-bit word of the integer, with zeros above. -/
theorem truncTo_eq_setWidth_ofInt (w : Nat) (v : Int) : truncTo w v = (BitVec.ofInt w v).setWidth 64 := by
  apply BitVec.eq_of_toNat_eq
  simp [truncTo]

theorem truncTo_toNat {w : Nat} (hw : w ≤ 64) (v : Int) : ((truncTo w v).toNat : Int) = v % 2 ^ w := by
  have hle : 2 ^ w ≤ 2 ^ 64 := Nat.pow_le_pow_right (by decide) hw
  have hlt := (BitVec.ofInt w v).isLt
  rw [truncTo_eq_setWidth_ofInt, BitVec.toNat_setWidth, Nat.mod_eq_of_lt (by omega), BitVec.toNat_ofInt,
    Int.toNat_of_nonneg (Int.emod_nonneg _ (by positivity))]
  norm_cast

theorem truncTo_toNat_lt {w : Nat} (hw : w ≤ 64) (v : Int) : (truncTo w v).toNat < 2 ^ w := by
  have h := truncTo_toNat hw v
  have hlt := Int.emod_lt_of_pos v (show (0 : Int) < 2 ^ w by positivity)
  rw [← h] at hlt
  exact_mod_cast hlt

/-- R16: an integer in the range of the width is the signed reading of its word. -/
theorem sres_truncTo {w : Nat} {v : Int} (h0 : 0 < w) (hw : w ≤ 64) (hlo : -2 ^ (w - 1) ≤ v) (hhi : v < 2 ^ (w - 1)) :
    Claims.sres w (truncTo w v) = v := by
  rw [Claims.sres, truncTo_eq_setWidth_ofInt, BitVec.setWidth_setWidth_of_le _ hw, BitVec.setWidth_eq,
    BitVec.toInt_ofInt_eq_self h0 hlo hhi]

/-- R15: a clamped value lies in the range of the width. -/
theorem clampTo_mem_range (w : Nat) (v : Int) :
    -2 ^ (w - 1) ≤ Claims.clampTo w v ∧ Claims.clampTo w v < 2 ^ (w - 1) := by
  have hpos : (0 : Int) < 2 ^ (w - 1) := by positivity
  unfold Claims.clampTo
  split_ifs <;> constructor <;> omega

/-- R224: the product of two signed readings lies in the range of the summed widths. -/
theorem toInt_mul_toInt_mem_range {wa wb : Nat} (ha : 0 < wa) (hb : 0 < wb) (a : BitVec wa) (b : BitVec wb) :
    -2 ^ (wa + wb - 1) ≤ a.toInt * b.toInt ∧ a.toInt * b.toInt < 2 ^ (wa + wb - 1) := by
  have hA : |a.toInt| ≤ 2 ^ (wa - 1) := abs_le.2 ⟨a.le_toInt, BitVec.toInt_lt.le⟩
  have hB : |b.toInt| ≤ 2 ^ (wb - 1) := abs_le.2 ⟨b.le_toInt, BitVec.toInt_lt.le⟩
  have hprod : |a.toInt * b.toInt| < 2 ^ (wa + wb - 1) := calc
    |a.toInt * b.toInt| = |a.toInt| * |b.toInt| := abs_mul _ _
    _ ≤ 2 ^ (wa - 1) * 2 ^ (wb - 1) := by gcongr
    _ = 2 ^ (wa - 1 + (wb - 1)) := (pow_add _ _ _).symm
    _ < 2 ^ (wa + wb - 1) := pow_lt_pow_right₀ (by decide) (by omega)
  exact ⟨(abs_lt.1 hprod).1.le, (abs_lt.1 hprod).2⟩

/-! ### The bytes of a Q8.8 word (R226, R227) -/

/-- R14: a port word shifted right by 8, in 8 bits, is its high byte. -/
theorem ofInt_asr_eight (x : Word) : BitVec.ofInt 8 (asr x.toInt 8) = x.extractLsb' 8 8 := by
  apply BitVec.eq_of_toNat_eq
  rw [BitVec.toNat_ofInt, BitVec.extractLsb'_toNat, Nat.shiftRight_eq_div_pow, asr, BitVec.toInt_eq_toNat_cond]
  split <;> omega

theorem truncTo_asr_eight (x : Word) : truncTo 8 (asr x.toInt 8) = (x.extractLsb' 8 8).setWidth 64 := by
  rw [truncTo_eq_setWidth_ofInt, ofInt_asr_eight]

/-- R227: the shift to the left puts the low byte of an operand in the high byte. -/
theorem extractLsb'_trunc16_shift (a : BitVec 32) :
    (trunc16 ((a.setWidth 16).toInt * 2 ^ 8)).extractLsb' 8 8 = a.extractLsb' 0 8 := by
  apply BitVec.eq_of_toNat_eq
  rw [trunc16, BitVec.extractLsb'_toNat, BitVec.extractLsb'_toNat, BitVec.toNat_ofInt, BitVec.toInt_eq_toNat_cond,
    BitVec.toNat_setWidth, Nat.shiftRight_eq_div_pow, Nat.shiftRight_eq_div_pow]
  split <;> omega

/-! ### The restoring division (R232) -/

/-- R232: with a remainder below the divisor, the steps on the low i bits of the dividend add to the quotient what
the remainder, followed by those bits, holds of the divisor. -/
theorem restoringSteps_quotient {d : Nat} (hd : 0 < d) (num i : Nat) {rem q : Nat} (hrem : rem < d) :
    (restoringSteps d num i (rem, q)).2 = q + (rem * 2 ^ i + num % 2 ^ i) / d := by
  induction i generalizing rem q with
  | zero => simp [restoringSteps, Nat.mod_one, Nat.div_eq_of_lt hrem]
  | succ i ih =>
    have hbound : 2 * rem + num / 2 ^ i % 2 < 2 * d := by omega
    have hnext : rem * 2 ^ (i + 1) + num % 2 ^ (i + 1) =
        (2 * rem + num / 2 ^ i % 2) * 2 ^ i + num % 2 ^ i := by
      rw [Nat.mod_pow_succ]; ring
    simp only [restoringSteps, Nat.shiftRight_eq_div_pow]
    rw [hnext]
    generalize 2 * rem + num / 2 ^ i % 2 = rem' at *
    split
    case isTrue hle =>
      have hback : rem' * 2 ^ i + num % 2 ^ i = (rem' - d) * 2 ^ i + num % 2 ^ i + 2 ^ i * d := by
        obtain ⟨r, rfl⟩ := Nat.exists_eq_add_of_le hle
        rw [Nat.add_sub_cancel_left]; ring
      rw [ih (by omega), hback, Nat.add_mul_div_right _ _ hd]
      ring
    case isFalse hlt => exact ih (by omega)

/-- R232: the magnitude is the floored quotient, saturated. -/
theorem recipMagnitude_eq_min {w d : Nat} (hw : 0 < w) (hd : 0 < d) :
    recipMagnitude w d = min (2 ^ (w - 1) / d) (2 ^ (w - 1) - 1) := by
  have hmod : 2 ^ (w - 1) % 2 ^ w = 2 ^ (w - 1) := Nat.mod_eq_of_lt (Nat.pow_lt_pow_right (by decide) (by omega))
  have hq : (restoringSteps d (2 ^ (w - 1)) w (0, 0)).2 = 2 ^ (w - 1) / d := by
    rw [restoringSteps_quotient hd _ _ hd, hmod, Nat.zero_mul, Nat.zero_add, Nat.zero_add]
  rw [recipMagnitude, hq]
  split <;> omega

/-- R232: the reciprocal is the saturated quotient with the sign of its operand. -/
theorem recipValue_eq {w : Nat} (hw : 0 < w) {n : Int} (hn : n ≠ 0) :
    recipValue w n =
      (if n < 0 then -1 else 1) * ((min (2 ^ (w - 1) / n.natAbs) (2 ^ (w - 1) - 1) : Nat) : Int) := by
  rw [recipValue, recipMagnitude_eq_min hw (Int.natAbs_pos.2 hn)]
  split <;> ring

/-- R232: the saturated quotient, with either sign, lies in the range of the width. -/
theorem recipValue_mem_range {w : Nat} (hw : 0 < w) {n : Int} (hn : n ≠ 0) :
    -2 ^ (w - 1) ≤ recipValue w n ∧ recipValue w n < 2 ^ (w - 1) := by
  have hpos : 0 < 2 ^ (w - 1) := by positivity
  have hmag : recipMagnitude w n.natAbs < 2 ^ (w - 1) := by
    rw [recipMagnitude_eq_min hw (Int.natAbs_pos.2 hn)]; omega
  have hmagZ : (recipMagnitude w n.natAbs : Int) < 2 ^ (w - 1) := by exact_mod_cast hmag
  unfold recipValue
  split <;> constructor <;> omega

/-! ### The operations -/

theorem exec_fxConv {fa fb : Fmt} (h : convPairOk fa fb = true) (s : State) :
    exec (.fxConv fa fb) s = .next (fxReturn (fmtWidth fb) (fmtFrac fb)
      (truncTo (fmtWidth fb) (alignPoint (fmtFrac fa) (fmtFrac fb) (fxA s fa))) s) :=
  if_pos h

theorem exec_fxSadd (f : Fmt) (s : State) :
    exec (.fxSadd f f) s = .next (fxReturn (fmtWidth f) (fmtFrac f)
      (truncTo (fmtWidth f) (Claims.clampTo (fmtWidth f) (fxA s f + fxB s f))) s) :=
  if_pos rfl

theorem exec_fxRecip_zero {f : Fmt} {s : State} (h : recipFmtOk f = true) (h0 : fxA s f = 0) :
    exec (.fxRecip f) s = .next (raiseFault .recipDivZero s) := by
  simp only [exec, execFxRecip, if_pos h, if_pos h0]

theorem exec_fxRecip_of_ne_zero {f : Fmt} {s : State} (h : recipFmtOk f = true) (h0 : fxA s f ≠ 0) :
    exec (.fxRecip f) s = .next (fxReturn (fmtWidth f) (fmtWidth f - 1)
      (truncTo (fmtWidth f) (recipValue (fmtWidth f) (fxA s f))) s) := by
  simp only [exec, execFxRecip, if_pos h, if_neg h0]

/-- Settles O20: two summed widths fit a result word, and no product leaves the range of the summed widths. -/
theorem fxMulIsExact : Obligations.FxMulIsExact := by
  intro fa fb s
  have ha := fmtWidth_pos fa
  have hb := fmtWidth_pos fb
  have hw : fmtWidth fa + fmtWidth fb ≤ 64 := Nat.add_le_add (fmtWidth_le fa) (fmtWidth_le fb)
  obtain ⟨hlo, hhi⟩ := toInt_mul_toInt_mem_range ha hb (s.opr.a.setWidth _) (s.opr.b.setWidth _)
  exact ⟨_, rfl, truncTo_toNat_lt hw _, sres_truncTo (by omega) hw hlo hhi⟩

/-- Settles O23: the clamped sum is in the range of the width, so its word reads as it. -/
theorem fxSaddSaturates : Obligations.FxSaddSaturates := by
  intro f s
  have hw := fmtWidth_le_64 f
  obtain ⟨hlo, hhi⟩ := clampTo_mem_range (fmtWidth f) (fxA s f + fxB s f)
  exact ⟨_, exec_fxSadd f s, truncTo_toNat_lt hw _, sres_truncTo (fmtWidth_pos f) hw hlo hhi⟩

/-- Settles O24: the restoring division gives the floored quotient, which saturates to a value in range. -/
theorem fxRecipIsTheFlooredReciprocal : Obligations.FxRecipIsTheFlooredReciprocal := by
  rintro f s n hf rfl
  have hok : recipFmtOk f = true := by
    simp only [List.mem_cons, List.not_mem_nil, or_false] at hf
    obtain rfl | rfl | rfl := hf <;> rfl
  have h0 := fmtWidth_pos f
  have hw := fmtWidth_le_64 f
  refine ⟨fun hn => exec_fxRecip_zero hok hn, fun hn => ?_⟩
  obtain ⟨hlo, hhi⟩ := recipValue_mem_range h0 hn
  exact ⟨_, exec_fxRecip_of_ne_zero hok hn, truncTo_toNat_lt hw _,
    (sres_truncTo h0 hw hlo hhi).trans (recipValue_eq h0 hn)⟩

/-- Settles O19: the word holds k mod 2^W, and an integer in range is the signed reading of its word. -/
theorem fxRawWrapsTheInteger : Obligations.FxRawWrapsTheInteger := by
  intro fa s
  have hw := fmtWidth_le_64 fa
  exact ⟨_, rfl, truncTo_toNat hw _, sres_truncTo (fmtWidth_pos fa) hw⟩

/-- Settles O21: both rows keep the high byte of a port word, the second of the operand shifted left by a byte. -/
theorem fxConvOfQ88KeepsOneByte : Obligations.FxConvOfQ88KeepsOneByte := by
  intro s
  have hhigh : truncTo 8 (asr (fxA s .q8_8) 8) = (s.opr.a.extractLsb' 8 8).setWidth 64 := by
    have h := truncTo_asr_eight (s.opr.a.setWidth 16)
    rwa [BitVec.extractLsb'_setWidth_of_le (by decide)] at h
  have hlow : truncTo 8 (asr (s16 (trunc16 (fxA s .q8_8 * 2 ^ 8))) 8) = (s.opr.a.extractLsb' 0 8).setWidth 64 :=
    (truncTo_asr_eight _).trans (congrArg _ (extractLsb'_trunc16_shift s.opr.a))
  refine ⟨?_, ?_⟩
  · rw [← hhigh]
    rfl
  · rw [← hlow]
    rfl

/-- Settles O22: the word is the aligned value modulo 2^W, and the alignment is the one shift or the other. -/
theorem fxConvAlignsThePoint : Obligations.FxConvAlignsThePoint := by
  intro fa fb s hwf
  have hw := fmtWidth_le_64 fb
  refine ⟨_, exec_fxConv hwf s, fun hle => ?_, fun hlt => ?_⟩
  · rw [truncTo_toNat hw, alignPoint, if_pos hle]
    rfl
  · rw [truncTo_toNat hw, alignPoint, if_neg (Nat.not_le.2 hlt)]
    rfl

end Sys2Proof.Machine
end

section
/-! PROOFS. The component family: the order in which phases (b) and (c) visit the nodes (46_engine R451), and the TICKs
that do nothing (R264). -/

namespace Sys2Proof.Machine

/-! ### The order of the visits (R451) -/

/-- R265: an operation on one entry and an operation on another do not see each other. -/
theorem modify_modify_comm {α : Type} (f : Nat → α → α) (l : List α) (i j : Nat) :
    (l.modify i (f i)).modify j (f j) = (l.modify j (f j)).modify i (f i) := by
  by_cases hij : i = j
  · rw [hij]
  · exact List.modify_modify_ne _ _ _ hij

/-- R451: visits in two orders, each of the same indices, leave the same list. -/
theorem foldl_modify_perm {α : Type} (f : Nat → α → α) {order order' : List Nat} (h : order.Perm order') (l : List α) :
    order.foldl (fun ms i => ms.modify i (f i)) l = order'.foldl (fun ms i => ms.modify i (f i)) l :=
  h.foldl_eq' (fun i _ j _ ms => modify_modify_comm f ms i j) l

/-- R266: the STEPs of the same nodes in two orders leave the same nodes. -/
theorem stepNodes_perm (c : Config) {order order' : List Nat} (h : order.Perm order') (ns : List Node) :
    stepNodes c order ns = stepNodes c order' ns :=
  foldl_modify_perm (stepNode c) h ns

/-- R266: the TICKs of the same nodes in two orders leave the same nodes. -/
theorem tickNodes_perm {order order' : List Nat} (h : order.Perm order') (ns : List Node) :
    tickNodes order ns = tickNodes order' ns :=
  foldl_modify_perm (fun _ => tickNode) h ns

/-- Settles O52: registration order is one order of the same indices, and the order does not matter. -/
theorem nodeOrderDoesNotMatter : Obligations.NodeOrderDoesNotMatter :=
  fun c ns _ h => ⟨stepNodes_perm c h ns, tickNodes_perm h ns⟩

/-! ### The TICKs that do nothing (R264) -/

/-- R181: the code of a kind's TICK instruction decodes to it. -/
theorem decode_encode_tickInstr (k : Kind) : decode (encode (tickInstr k)) = .ok (tickInstr k) :=
  decodeOfEncodeIsTheInstruction _ (by cases k <;> rfl)

/-- Settles O33: each code is the encoding of the TICK of a kind other than SEQ. -/
theorem tickOfOtherKindsDoesNothing : Obligations.TickOfOtherKindsDoesNothing := by
  intro s p hp
  have hkind : ∃ k : Kind, k ≠ .seq ∧ encode (tickInstr k) = .disp p.1 ∧ tickInstr k = p.2 := by
    simp only [List.mem_cons, List.not_mem_nil, or_false] at hp
    rcases hp with rfl | rfl | rfl | rfl | rfl
    · exact ⟨.env, by decide, rfl, rfl⟩
    · exact ⟨.osc, by decide, rfl, rfl⟩
    · exact ⟨.vca, by decide, rfl, rfl⟩
    · exact ⟨.mix, by decide, rfl, rfl⟩
    · exact ⟨.rev, by decide, rfl, rfl⟩
  obtain ⟨k, hk, hcode, hinstr⟩ := hkind
  rw [← hcode, ← hinstr]
  exact ⟨decode_encode_tickInstr k, exec_tickInstr_of_ne_seq hk s⟩

end Sys2Proof.Machine
end

section
/-! PROOFS. The envelope family: the two detectors, what ENV.STEP computes in each state, and the attack ramp
(42_envelope R290 to R303). -/

namespace Sys2Proof.Machine

/-! ### The detectors and the division, in the words of the statements -/

theorem triggerDetect_eq (v : Int) (e : EnvSt) : triggerDetect v e =
    (Claims.fires v e.trigArmed, { e with trigArmed := Claims.armedAfter v e.trigArmed }) := by
  unfold triggerDetect Claims.fires Claims.armedAfter tLow tHigh
  by_cases hlow : v < 8192
  · have hnot : ¬ (24576 < v ∧ e.trigArmed = true) := by omega
    simp [hlow, hnot]
  · by_cases hfire : 24576 < v ∧ e.trigArmed = true <;> simp [hlow, hfire]

theorem gateDetect_eq (v : Int) (e : EnvSt) :
    gateDetect v e = { e with gateOpen := Claims.gateAfter v e.gateOpen } := by
  unfold gateDetect Claims.gateAfter tLow tHigh
  split_ifs <;> rfl

theorem rampDiv_eq_ramp (c : Config) (num : Int) (den : Nat) : rampDiv c num den = Claims.ramp c num den := by
  unfold rampDiv Claims.ramp
  cases c.rampDiv <;> rfl

/-- R16: truncating the signed reading of a word gives the word back. -/
theorem trunc16_s16 (x : Word) : trunc16 (s16 x) = x := BitVec.ofInt_toInt

/-- R292: a gate level above T_HIGH opens the gate. -/
theorem gateNow_of_high {n : Node} (e : EnvSt) (h : 24576 < (n.ins.getD 6 0).toInt) : Claims.gateNow n e = true :=
  if_pos h

/-- R291: a trigger level up to T_HIGH does not fire. -/
theorem not_triggered_of_le {n : Node} (e : EnvSt) (h : (n.ins.getD 5 0).toInt ≤ 24576) : ¬ Claims.Triggered n e := by
  simp only [Claims.Triggered, Claims.fires, decide_eq_true_eq]
  omega

/-- R290: the detectors set the two flags, and the transition starts from there. -/
theorem envNext_eq (c : Config) (n : Node) (out : Word) (e : EnvSt) : envNext c (envIn n) out e =
    envTransition c (envIn n) (Claims.fires (n.ins.getD 5 0).toInt e.trigArmed) out
      (Claims.fields n e e.state e.counter (Claims.gateNow n e)) := by
  simp only [envNext, triggerDetect_eq, gateDetect_eq]
  rfl

/-! ### ENV.STEP of the operand node -/

theorem asEnvStep_of {c : Config} {n : Node} {e e' : EnvSt} {out : Word} (hb : n.body = .env e)
    (h : envNext c (envIn n) (outp n pOut) e = (out, e')) :
    asEnvStep c n = some { n with outs := n.outs.set 0 out, body := .env e' } := by
  simp only [asEnvStep, hb, envStepNode, h]
  rfl

theorem exec_envStep_of {s : State} {n : Node} {e e' : EnvSt} {out : Word} (hn : Claims.OnEnv s n e)
    (h : envNext s.cfg (envIn n) (outp n pOut) e = (out, e')) :
    exec .envStep s = .next (Claims.withEnv s n out e') := by
  obtain ⟨hget, hb⟩ := hn
  exact onOperandNode_of hget (asEnvStep_of hb h)

/-- An output written with the value it has is as it was. -/
theorem withEnv_outp (s : State) (n : Node) (e : EnvSt) :
    Claims.withEnv s n (outp n pOut) e = Claims.putNode s s.opr.node { n with body := .env e } := by
  have hset : n.outs.set 0 (n.outs.getD 0 0) = n.outs := by cases n.outs <;> rfl
  unfold Claims.withEnv outp pOut
  rw [hset]

/-! ### The transition in each state -/

section Transition

variable {c : Config} {n : Node} {e : EnvSt} {out : Word}

/-- R294. -/
theorem envNext_off (hs : e.state = .off) : envNext c (envIn n) out e =
    (0, Claims.fields n e (if Claims.fires (n.ins.getD 5 0).toInt e.trigArmed then .attack else .off) 0
      (Claims.gateNow n e)) := by
  rw [envNext_eq, hs]
  rfl

/-- R293: with ENV_RETRIG = HOLD a trigger outside Off stops the transition. -/
theorem envNext_held (hs : e.state ≠ .off) (hr : c.retrig = .hold) (ht : Claims.Triggered n e) :
    envNext c (envIn n) out e = (out, Claims.fields n e e.state e.counter (Claims.gateNow n e)) := by
  rw [envNext_eq]
  cases hst : e.state with
  | off => exact absurd hst hs
  | attack => exact if_pos ⟨ht, hr⟩
  | decay => exact if_pos ⟨ht, hr⟩
  | sustain => exact if_pos ⟨ht, hr⟩
  | release => exact if_pos ⟨ht, hr⟩

/-- R293: without a trigger, or with ENV_RETRIG = IGNORE, the transition is not stopped. -/
theorem not_held (hfree : ¬ Claims.Triggered n e ∨ c.retrig = .ignore) :
    ¬ (Claims.Triggered n e ∧ c.retrig = .hold) := by
  rintro ⟨ht, hr⟩
  rcases hfree with hnt | hi
  · exact hnt ht
  · rw [hr] at hi
    cases hi

/-- R298. -/
theorem envNext_gateLoss (hs : e.state ∈ [EnvState.attack, .decay, .sustain])
    (hfree : ¬ Claims.Triggered n e ∨ c.retrig = .ignore) (hg : Claims.gateNow n e = false) :
    envNext c (envIn n) out e = (out, Claims.fields n e .release 0 false) := by
  rw [envNext_eq, hg]
  cases hst : e.state with
  | off => simp [hst] at hs
  | attack => exact if_neg (not_held hfree)
  | decay => exact if_neg (not_held hfree)
  | sustain => exact if_neg (not_held hfree)
  | release => simp [hst] at hs

/-- R295, with the gate open. -/
theorem envNext_attack (hs : e.state = .attack) (hfree : ¬ Claims.Triggered n e ∨ c.retrig = .ignore)
    (hg : Claims.gateNow n e = true) :
    envNext c (envIn n) out e = attackStep c (envIn n) (Claims.fields n e .attack e.counter true) := by
  rw [envNext_eq, hs, hg]
  exact if_neg (not_held hfree)

/-- R296, with the gate open. -/
theorem envNext_decay (hs : e.state = .decay) (hfree : ¬ Claims.Triggered n e ∨ c.retrig = .ignore)
    (hg : Claims.gateNow n e = true) :
    envNext c (envIn n) out e = decayStep c (envIn n) (Claims.fields n e .decay e.counter true) := by
  rw [envNext_eq, hs, hg]
  exact if_neg (not_held hfree)

/-- R297, with the gate open. -/
theorem envNext_sustain (hs : e.state = .sustain) (hfree : ¬ Claims.Triggered n e ∨ c.retrig = .ignore)
    (hg : Claims.gateNow n e = true) :
    envNext c (envIn n) out e = (n.ins.getD 3 0, Claims.fields n e .sustain e.counter true) := by
  rw [envNext_eq, hs, hg]
  exact (if_neg (not_held hfree)).trans (congrArg (·, _) (trunc16_s16 _))

/-- R299, whatever the gate. -/
theorem envNext_release (hs : e.state = .release) (hfree : ¬ Claims.Triggered n e ∨ c.retrig = .ignore) :
    envNext c (envIn n) out e =
      releaseStep c (envIn n) (Claims.fields n e .release e.counter (Claims.gateNow n e)) := by
  rw [envNext_eq, hs]
  exact if_neg (not_held hfree)

/-! ### The ramps: the last step and the others -/

/-- R295: c reaches attack_for. -/
theorem envNext_attack_end (hs : e.state = .attack) (hfree : ¬ Claims.Triggered n e ∨ c.retrig = .ignore)
    (hg : Claims.gateNow n e = true) (hle : (n.ins.getD 0 0).toNat ≤ e.counter.toNat + 1) :
    envNext c (envIn n) out e = (n.ins.getD 1 0, Claims.fields n e .decay 0 true) := by
  rw [envNext_attack hs hfree hg]
  exact (if_pos hle).trans (congrArg (·, _) (trunc16_s16 _))

/-- R295: c stays below attack_for. -/
theorem envNext_attack_ramp (hs : e.state = .attack) (hfree : ¬ Claims.Triggered n e ∨ c.retrig = .ignore)
    (hg : Claims.gateNow n e = true) (hlt : e.counter.toNat + 1 < (n.ins.getD 0 0).toNat) :
    envNext c (envIn n) out e =
      (BitVec.ofInt 16 (Claims.ramp c ((n.ins.getD 1 0).toInt * (e.counter.toNat + 1 : Nat)) (n.ins.getD 0 0).toNat),
        Claims.fields n e .attack (BitVec.ofNat 16 (e.counter.toNat + 1)) true) := by
  rw [envNext_attack hs hfree hg, ← rampDiv_eq_ramp]
  exact if_neg (Nat.not_le.2 hlt)

/-- R296: c reaches decay_for. -/
theorem envNext_decay_end (hs : e.state = .decay) (hfree : ¬ Claims.Triggered n e ∨ c.retrig = .ignore)
    (hg : Claims.gateNow n e = true) (hle : (n.ins.getD 2 0).toNat ≤ e.counter.toNat + 1) :
    envNext c (envIn n) out e = (n.ins.getD 3 0, Claims.fields n e .sustain 0 true) := by
  rw [envNext_decay hs hfree hg]
  exact (if_pos hle).trans (congrArg (·, _) (trunc16_s16 _))

/-- R296: c stays below decay_for. -/
theorem envNext_decay_ramp (hs : e.state = .decay) (hfree : ¬ Claims.Triggered n e ∨ c.retrig = .ignore)
    (hg : Claims.gateNow n e = true) (hlt : e.counter.toNat + 1 < (n.ins.getD 2 0).toNat) :
    envNext c (envIn n) out e =
      (BitVec.ofInt 16 ((n.ins.getD 1 0).toInt - Claims.ramp c
          (((n.ins.getD 1 0).toInt - (n.ins.getD 3 0).toInt) * (e.counter.toNat + 1 : Nat)) (n.ins.getD 2 0).toNat),
        Claims.fields n e .decay (BitVec.ofNat 16 (e.counter.toNat + 1)) true) := by
  rw [envNext_decay hs hfree hg, ← rampDiv_eq_ramp]
  exact if_neg (Nat.not_le.2 hlt)

/-- R299: c reaches release_for. -/
theorem envNext_release_end (hs : e.state = .release) (hfree : ¬ Claims.Triggered n e ∨ c.retrig = .ignore)
    (hle : (n.ins.getD 4 0).toNat ≤ e.counter.toNat + 1) :
    envNext c (envIn n) out e = (0, Claims.fields n e .off 0 false) := by
  rw [envNext_release hs hfree]
  exact if_pos hle

/-- R299: c stays below release_for. -/
theorem envNext_release_ramp (hs : e.state = .release) (hfree : ¬ Claims.Triggered n e ∨ c.retrig = .ignore)
    (hlt : e.counter.toNat + 1 < (n.ins.getD 4 0).toNat) :
    envNext c (envIn n) out e =
      (BitVec.ofInt 16 ((n.ins.getD 3 0).toInt - Claims.ramp c
          ((n.ins.getD 3 0).toInt * (e.counter.toNat + 1 : Nat)) (n.ins.getD 4 0).toNat),
        Claims.fields n e .release (BitVec.ofNat 16 (e.counter.toNat + 1)) false) := by
  rw [envNext_release hs hfree, ← rampDiv_eq_ramp]
  exact if_neg (Nat.not_le.2 hlt)

end Transition

/-! ### The attack ramp (R301) -/

/-- A run of k + 1 steps is a run of k and one more step at its end. -/
theorem iter_succ_eq_bind (f : Node → Option Node) (k : Nat) (n : Node) :
    Claims.iter f (k + 1) n = (Claims.iter f k n).bind f := by
  induction k generalizing n with
  | zero => simp [Claims.iter]
  | succ k ih =>
    cases hf : f n with
    | none => simp [Claims.iter, hf]
    | some m => simpa [Claims.iter, hf] using ih m

/-- Node m, with private fields e, is j steps into an attack with the latches `ins`. -/
structure InAttack (ins : List Word) (j : Nat) (m : Node) (e : EnvSt) : Prop where
  body : m.body = .env e
  ins_eq : m.ins = ins
  outs : m.outs.length = 1
  state : e.state = .attack
  counter : e.counter.toNat = j

/-- The one output of a node after it is written. -/
theorem set_zero_of_length_one {l : List Word} (h : l.length = 1) (v : Word) : l.set 0 v = [v] := by
  obtain ⟨w, rfl⟩ := List.length_eq_one_iff.1 h
  rfl

section AttackRamp

variable {c : Config} {ins : List Word} {j : Nat} {m : Node} {e : EnvSt}

/-- R295: below attack_for a step of the ramp outputs its next point and goes on. -/
theorem InAttack.step (h : InAttack ins j m e) (hdiv : c.rampDiv = .tdiv) (hg : 24576 < (ins.getD 6 0).toInt)
    (ht : (ins.getD 5 0).toInt ≤ 24576) (hj : j + 1 < (ins.getD 0 0).toNat) :
    ∃ m' e', asEnvStep c m = some m' ∧ InAttack ins (j + 1) m' e' ∧
      m'.outs = [BitVec.ofInt 16 (((ins.getD 1 0).toInt * (j + 1 : Nat)).tdiv (ins.getD 0 0).toNat)] := by
  obtain ⟨hb, rfl, ho, hs, rfl⟩ := h
  have hA := (m.ins.getD 0 0).isLt
  have hramp (num : Int) (den : Nat) : Claims.ramp c num den = num.tdiv den := by simp [Claims.ramp, hdiv]
  have hstep := asEnvStep_of hb
    (envNext_attack_ramp (c := c) hs (.inl (not_triggered_of_le e ht)) (gateNow_of_high e hg) hj)
  rw [hramp, set_zero_of_length_one ho] at hstep
  exact ⟨_, _, hstep, ⟨rfl, rfl, rfl, rfl, Nat.mod_eq_of_lt (by omega)⟩, rfl⟩

/-- R295: the step that reaches attack_for outputs attack_to and goes to Decay. -/
theorem InAttack.last_step (h : InAttack ins j m e) (hg : 24576 < (ins.getD 6 0).toInt)
    (ht : (ins.getD 5 0).toInt ≤ 24576) (hj : (ins.getD 0 0).toNat ≤ j + 1) :
    ∃ m' e', asEnvStep c m = some m' ∧ m'.body = .env e' ∧ m'.outs = [ins.getD 1 0] ∧ e'.state = .decay ∧
      e'.counter = 0 ∧ m'.ins = ins := by
  obtain ⟨hb, rfl, ho, hs, rfl⟩ := h
  have hstep := asEnvStep_of hb
    (envNext_attack_end (c := c) hs (.inl (not_triggered_of_le e ht)) (gateNow_of_high e hg) hj)
  exact ⟨_, _, hstep, rfl, set_zero_of_length_one ho _, rfl, rfl, rfl⟩

/-- R301: j steps from the entry, for j below attack_for, the node is j steps into its attack. -/
theorem InAttack.iter (h : InAttack ins 0 m e) (hdiv : c.rampDiv = .tdiv) (hg : 24576 < (ins.getD 6 0).toInt)
    (ht : (ins.getD 5 0).toInt ≤ 24576) (hj : j < (ins.getD 0 0).toNat) :
    ∃ m' e', Claims.iter (asEnvStep c) j m = some m' ∧ InAttack ins j m' e' := by
  induction j with
  | zero => exact ⟨m, e, rfl, h⟩
  | succ j ih =>
    obtain ⟨m', e', hiter, hm'⟩ := ih (by omega)
    obtain ⟨m'', e'', hstep, hm'', -⟩ := hm'.step hdiv hg ht hj
    exact ⟨m'', e'', by rw [iter_succ_eq_bind, hiter, Option.bind_some, hstep], hm''⟩

end AttackRamp

/-- Settles O32: the node is j - 1 steps into its attack before the j-th step, which is a step of the ramp or its last. -/
theorem envAttackRampIsLinear : Obligations.EnvAttackRampIsLinear := by
  intro c n e hdiv hb ho hs hc hg ht T A hA
  have hentry : InAttack n.ins 0 n e := ⟨hb, rfl, ho, hs, by rw [hc]; rfl⟩
  constructor
  · intro j hj hjA
    obtain ⟨i, rfl⟩ := Nat.exists_eq_add_of_le' hj
    obtain ⟨m, e₁, hiter, hm⟩ := hentry.iter (j := i) hdiv hg ht (by omega)
    obtain ⟨m', e', hstep, hm', hout⟩ := hm.step hdiv hg ht hjA
    exact ⟨m', e', by rw [iter_succ_eq_bind, hiter, Option.bind_some, hstep], hm'.body, hout, hm'.state, hm'.counter,
      hm'.ins_eq⟩
  · obtain ⟨i, hi⟩ := Nat.exists_eq_add_of_le' hA
    obtain ⟨m, e₁, hiter, hm⟩ := hentry.iter (j := i) hdiv hg ht (by omega)
    obtain ⟨m', e', hstep, hafter⟩ := hm.last_step hg ht hi.le
    exact ⟨m', e', by rw [hi, iter_succ_eq_bind, hiter, Option.bind_some, hstep], hafter⟩

/-! ### One step in each state -/

/-- Settles O25: the transition from Off. -/
theorem envStepInOff : Obligations.EnvStepInOff :=
  fun _ _ _ hn hs => exec_envStep_of hn (envNext_off hs)

/-- Settles O26: the held transition writes the output it read. -/
theorem envTriggerOutsideOffHolds : Obligations.EnvTriggerOutsideOffHolds := by
  intro s n e hn hs hr ht
  rw [← withEnv_outp]
  exact exec_envStep_of hn (envNext_held hs hr ht)

/-- Settles O27: the lost gate writes the output it read. -/
theorem envGateLossReleases : Obligations.EnvGateLossReleases := by
  intro s n e hn hs hfree hg
  rw [← withEnv_outp]
  exact exec_envStep_of hn (envNext_gateLoss hs hfree hg)

/-- Settles O28: the last step of the attack and the others. -/
theorem envStepInAttack : Obligations.EnvStepInAttack :=
  fun _ _ _ hn hs hfree hg =>
    ⟨fun hle => exec_envStep_of hn (envNext_attack_end hs hfree hg hle),
      fun hlt => exec_envStep_of hn (envNext_attack_ramp hs hfree hg hlt)⟩

/-- Settles O29: the last step of the decay and the others. -/
theorem envStepInDecay : Obligations.EnvStepInDecay :=
  fun _ _ _ hn hs hfree hg =>
    ⟨fun hle => exec_envStep_of hn (envNext_decay_end hs hfree hg hle),
      fun hlt => exec_envStep_of hn (envNext_decay_ramp hs hfree hg hlt)⟩

/-- Settles O30: the transition in Sustain with the gate open. -/
theorem envStepInSustain : Obligations.EnvStepInSustain :=
  fun _ _ _ hn hs hfree hg => exec_envStep_of hn (envNext_sustain hs hfree hg)

/-- Settles O31: the last step of the release and the others. -/
theorem envStepInRelease : Obligations.EnvStepInRelease :=
  fun _ _ _ hn hs hfree =>
    ⟨fun hle => exec_envStep_of hn (envNext_release_end hs hfree hle),
      fun hlt => exec_envStep_of hn (envNext_release_ramp hs hfree hlt)⟩

end Sys2Proof.Machine
end

section
/-! PROOFS. The oscillator family: what OSC.STEP computes, the bounds of its modulation, and the phase of an unmodulated
run (43_oscillator R330 to R342). -/

namespace Sys2Proof.Machine

/-! ### The readings of an OSC node, in the words of the statements -/

theorem noteIndex_eq (n : Node) : noteIndex n = (max 0 (min 127 (n.ins.getD 0 0).toInt)).toNat := by
  change (clamp (n.ins.getD 0 0).toInt 0 127).toNat = _
  unfold clamp
  split_ifs <;> omega

theorem noteInc_of {c : Config} {n : Node} {inc : Nat}
    (h : c.roms.inc[(max 0 (min 127 (n.ins.getD 0 0).toInt)).toNat]? = some inc) : noteInc c n = inc := by
  rw [noteInc, noteIndex_eq, List.getD_eq_getElem?_getD, h, Option.getD_some]

/-- R333: the increment is read from the latches alone. -/
theorem noteInc_congr (c : Config) {m n : Node} (h : m.ins = n.ins) : noteInc c m = noteInc c n := by
  simp only [noteInc, noteIndex, inp, h]

theorem modOffset_eq (c : Config) (n : Node) :
    modOffset c n = Claims.mul15 (n.ins.getD 1 0) (n.ins.getD 2 0) * noteInc c n / 32768 := rfl

/-- R335: the phase after the step, as an integer. -/
theorem nextPhase_cast (c : Config) (n : Node) (p : Nat) :
    (nextPhase c n p : Int) = (p + noteInc c n + modOffset c n) % 2 ^ c.wPhase :=
  Int.toNat_of_nonneg (Int.emod_nonneg _ (by positivity))

/-! ### OSC.STEP of the operand node -/

theorem asOscStep_of (c : Config) {n : Node} {o : OscSt} (hb : n.body = .osc o) :
    asOscStep c n = some (oscStepNode c n o) := by
  rw [asOscStep, hb]

theorem exec_oscStep_of {s : State} {n : Node} {o : OscSt} (hn : s.nodes[s.opr.node]? = some n) (hb : n.body = .osc o) :
    exec .oscStep s = .next (setNode s s.opr.node (oscStepNode s.cfg n o)) :=
  onOperandNode_of hn (asOscStep_of s.cfg hb)

/-- Settles O34: the new phase is the model's next phase, and its table index is a division by a power of two. -/
theorem oscStepAdvancesThenReads : Obligations.OscStepAdvancesThenReads := by
  intro s n o inc hn hb hinc
  refine ⟨nextPhase s.cfg n o.phase, ?_, ?_⟩
  · rw [nextPhase_cast, modOffset_eq, noteInc_of hinc]
  · rw [exec_oscStep_of hn hb, ← Nat.shiftRight_eq_div_pow]
    rfl

/-! ### The bounds of the modulation (R336) -/

/-- R229: the scaled product of two port words; its largest value is that of -32768 by itself. -/
theorem mulq15_mem_range (a b : Word) : -32767 ≤ mulq15 a b ∧ mulq15 a b ≤ 32768 := by
  have ha : -32768 ≤ a.toInt := a.le_toInt
  have ha' : a.toInt ≤ 32767 := Int.le_of_lt_add_one a.toInt_lt
  have hb : -32768 ≤ b.toInt := b.le_toInt
  have hb' : b.toInt ≤ 32767 := Int.le_of_lt_add_one b.toInt_lt
  have hprod : -32768 * 32767 ≤ a.toInt * b.toInt ∧ a.toInt * b.toInt ≤ 32768 * 32768 := by
    rcases le_total 0 a.toInt with hsign | hsign <;> constructor <;> nlinarith
  change -32767 ≤ a.toInt * b.toInt / 32768 ∧ a.toInt * b.toInt / 32768 ≤ 32768
  omega

/-- R14: a number scaled by a factor of magnitude at most 1, in k fraction bits, keeps within its own magnitude. -/
theorem asr_mul_mem_range {m v : Int} {k : Nat} (hlo : -2 ^ k ≤ m) (hhi : m ≤ 2 ^ k) (hv : 0 ≤ v) :
    -v ≤ asr (m * v) k ∧ asr (m * v) k ≤ v := by
  have hk : (0 : Int) < 2 ^ k := by positivity
  constructor
  · exact (Int.le_ediv_iff_mul_le hk).2 (by nlinarith)
  · exact Int.ediv_le_of_le_mul hk (by nlinarith)

/-- Settles O35: the factor's magnitude is at most 1 in 15 fraction bits. -/
theorem oscOffsetStaysWithinTheIncrement : Obligations.OscOffsetStaysWithinTheIncrement := by
  intro c n
  have hm : -32767 ≤ modFactor n ∧ modFactor n ≤ 32768 := mulq15_mem_range _ _
  obtain ⟨hlo, hhi⟩ := asr_mul_mem_range (k := 15) (by omega) hm.2 (Int.natCast_nonneg (noteInc c n))
  exact ⟨hlo, hhi, hm⟩

/-! ### The unmodulated run (R342) -/

theorem modOffset_of_depth_zero (c : Config) {n : Node} (hd : n.ins.getD 2 0 = 0) : modOffset c n = 0 := by
  rw [modOffset_eq, hd]
  simp [Claims.mul15]

theorem nextPhase_of_depth_zero (c : Config) {n : Node} (hd : n.ins.getD 2 0 = 0) (p : Nat) :
    nextPhase c n p = (p + noteInc c n) % 2 ^ c.wPhase := by
  zify
  rw [nextPhase_cast, modOffset_of_depth_zero c hd, add_zero]

/-- Settles O36, by induction on the number of steps with the new step last. -/
theorem oscPhaseAfterManySteps : Obligations.OscPhaseAfterManySteps := by
  intro c n o j hb hd hp
  induction j with
  | zero => exact ⟨n, o, rfl, hb, rfl, by simp [Nat.mod_eq_of_lt hp], rfl, rfl⟩
  | succ j ih =>
    obtain ⟨m, o', hiter, hbody, hins, hphase, hwave, hcustom⟩ := ih
    refine ⟨oscStepNode c m o', { o' with phase := nextPhase c m o'.phase }, ?_, rfl, hins, ?_, hwave, hcustom⟩
    · rw [iter_succ_eq_bind, hiter, Option.bind_some, asOscStep_of c hbody]
    · calc nextPhase c m o'.phase
        _ = (o'.phase + noteInc c n) % 2 ^ c.wPhase := by
            rw [nextPhase_of_depth_zero c (by rw [hins, hd]), noteInc_congr c hins]
        _ = (o.phase + (j + 1) * noteInc c n) % 2 ^ c.wPhase := by
            rw [hphase, Nat.mod_add_mod, add_assoc, ← Nat.succ_mul]

end Sys2Proof.Machine
end

section
/-! PROOFS. The sequencer family: what SEQ.TICK and SEQ.STEP make of a SEQ node, and how long a step's gate is held
(44_sequencer R371 to R375). -/

namespace Sys2Proof.Machine

/-! ### The private fields after a tick and after a step -/

section Fields

variable {q : SeqSt}

/-- R371, onto an active step. -/
theorem seqTickSt_of_active (h : q.pattern.getLsbD (q.beat + 1).toNat = true) :
    seqTickSt q = { q with beat := q.beat + 1, gateR := true, trigR := true, elapsed := 0 } :=
  if_pos h

/-- R371, onto an inactive step. -/
theorem seqTickSt_of_inactive (h : q.pattern.getLsbD (q.beat + 1).toNat = false) :
    seqTickSt q = { q with beat := q.beat + 1, gateR := false, trigR := false } :=
  if_neg (Bool.eq_false_iff.1 h)

/-- R372, on an active step. -/
theorem seqStepSt_of_active (h : q.pattern.getLsbD q.beat.toNat = true) :
    seqStepSt q = { q with
      trigR := false
      elapsed := q.elapsed + 1
      gateR := if q.elapsed + 1 = 0 ∨ (q.gatelen.getD q.beat.toNat 0).toNat < (q.elapsed + 1).toNat then false
        else q.gateR } :=
  if_pos h

/-- R372, on an inactive step. -/
theorem seqStepSt_of_inactive (h : q.pattern.getLsbD q.beat.toNat = false) :
    seqStepSt q = { q with trigR := false } :=
  if_neg (Bool.eq_false_iff.1 h)

/-- R372: a step changes the trigger, the elapsed count and the gate alone. -/
theorem seqStepSt_frame (q : SeqSt) :
    seqStepSt q = { q with trigR := false, elapsed := (seqStepSt q).elapsed, gateR := (seqStepSt q).gateR } := by
  cases h : q.pattern.getLsbD q.beat.toNat with
  | true => rw [seqStepSt_of_active h]
  | false => rw [seqStepSt_of_inactive h]

end Fields

/-! ### SEQ.TICK and SEQ.STEP of a node -/

section Node

variable {s : State} {n : Node} {q : SeqSt}

/-- R373: DRIVE rewrites the outputs and the private fields whole, so only the last one counts. -/
theorem drive_drive (n : Node) (q q' : SeqSt) : drive (drive n q) q' = drive n q' := by
  have houts (w x y z : Word) : (((n.outs.set 0 w).set 1 x).set 0 y).set 1 z = (n.outs.set 0 y).set 1 z := by
    rw [List.set_comm x y (by decide), List.set_set, List.set_set]
  simp only [drive, setOut, pOut, pSeqTrigger, houts]

/-- R373: DRIVE of a node with the two outputs of R52. -/
theorem drive_outs_of_length_two (q : SeqSt) (h : n.outs.length = 2) :
    (drive n q).outs = [driveLevel q.gateR, driveLevel q.trigR] := by
  obtain ⟨gate, trigger, houts⟩ := List.length_eq_two.1 h
  simp [drive, houts, pOut, pSeqTrigger]

theorem asSeqStep_of (hb : n.body = .seq q) : asSeqStep n = some (drive n (seqStepSt q)) := by
  simp only [asSeqStep, hb, seqStepNode]

theorem asSeqTick_of (hb : n.body = .seq q) : asSeqTick n = some (drive n (seqTickSt q)) := by
  simp only [asSeqTick, hb, seqTickNode]

theorem exec_seqStep_of (hn : s.nodes[s.opr.node]? = some n) (hb : n.body = .seq q) :
    exec .seqStep s = .next (Claims.putNode s s.opr.node (drive n (seqStepSt q))) :=
  onOperandNode_of hn (asSeqStep_of hb)

theorem exec_seqTick_of (hn : s.nodes[s.opr.node]? = some n) (hb : n.body = .seq q) :
    exec .seqTick s = .next (Claims.putNode s s.opr.node (drive n (seqTickSt q))) :=
  onOperandNode_of hn (asSeqTick_of hb)

end Node

/-! ### The held gate (R375) -/

/-- R375: the private fields m STEPs after a tick opened q's step. -/
def heldFor (q : SeqSt) (m : Nat) : SeqSt :=
  { q with
    trigR := false
    elapsed := BitVec.ofNat 16 m
    gateR := decide (m ≤ (q.gatelen.getD q.beat.toNat 0).toNat) }

section Held

variable {n : Node} {q : SeqSt} {m : Nat}

/-- R372: below the wrap, the gate is open at count m + 1 just where it was open at m and the length reaches m + 1. -/
theorem seqStepSt_of_count (hact : q.pattern.getLsbD q.beat.toNat = true) (hel : q.elapsed = BitVec.ofNat 16 m)
    (hg : q.gateR = decide (m ≤ (q.gatelen.getD q.beat.toNat 0).toNat)) (hm : m + 1 < 65536) :
    seqStepSt q = heldFor q (m + 1) := by
  have hnext : q.elapsed + 1 = BitVec.ofNat 16 (m + 1) := by rw [hel, BitVec.ofNat_add]; rfl
  have hcount : (BitVec.ofNat 16 (m + 1)).toNat = m + 1 := Nat.mod_eq_of_lt hm
  have hwrap : ¬ BitVec.ofNat 16 (m + 1) = 0 := fun h => by simp [h] at hcount
  rw [seqStepSt_of_active hact, hnext, hcount, hg, heldFor]
  congr 1
  by_cases hlen : (q.gatelen.getD q.beat.toNat 0).toNat < m + 1
  · rw [if_pos (.inr hlen), decide_eq_false (by omega)]
  · rw [if_neg (by tauto), decide_eq_true (by omega), decide_eq_true (by omega)]

/-- R375: m + 1 STEPs after a tick that opened an active step, the private fields are the held ones, driven out. -/
theorem iter_asSeqStep (hb : n.body = .seq q) (hact : q.pattern.getLsbD q.beat.toNat = true) (hel : q.elapsed = 0)
    (hg : q.gateR = true) (hm : m + 1 < 65536) :
    Claims.iter asSeqStep (m + 1) n = some (drive n (heldFor q (m + 1))) := by
  induction m with
  | zero =>
    have hfirst : seqStepSt q = heldFor q 1 := seqStepSt_of_count hact hel (by simp [hg]) hm
    rw [iter_succ_eq_bind, Claims.iter, Option.bind_some, asSeqStep_of hb, hfirst]
  | succ m ih =>
    have hnext : seqStepSt (heldFor q (m + 1)) = heldFor q (m + 2) := seqStepSt_of_count hact rfl rfl hm
    rw [iter_succ_eq_bind, ih (by omega), Option.bind_some, asSeqStep_of rfl, drive_drive, hnext]

end Held

/-- Settles O39: the held fields are in closed form, and DRIVE shows them. -/
theorem seqGateIsHeldForItsLength : Obligations.SeqGateIsHeldForItsLength := by
  intro n q m hb ho hact hel hg hm hlt
  obtain ⟨k, rfl⟩ := Nat.exists_eq_add_of_le' hm
  refine ⟨_, heldFor q (k + 1), iter_asSeqStep hb hact hel hg hlt, rfl, Nat.mod_eq_of_lt hlt, rfl, ?_⟩
  simp [drive_outs_of_length_two _ ho, heldFor, driveLevel, highLevel]

/-! ### One tick and one step -/

/-- Settles O37: the beat is four bits wide, and the new beat's pattern bit says which tick it is. -/
theorem seqTickAdvancesTheBeat : Obligations.SeqTickAdvancesTheBeat := by
  intro s n q hn hb
  refine ⟨q.beat + 1, BitVec.toNat_add q.beat 1, fun hact => ?_, fun hact => ?_⟩
  · rw [exec_seqTick_of hn hb, seqTickSt_of_active hact]
    rfl
  · rw [exec_seqTick_of hn hb, seqTickSt_of_inactive hact]
    rfl

/-- Settles O38: the step's pattern bit says which step it is, and both leave the rest. -/
theorem seqStepTimesTheGate : Obligations.SeqStepTimesTheGate := by
  intro s n q hn hb
  refine ⟨(seqStepSt q).elapsed, (seqStepSt q).gateR, ?_, fun hact => ?_, fun hact => ?_⟩
  · rw [exec_seqStep_of hn hb, seqStepSt_frame]
    rfl
  · rw [seqStepSt_of_active hact]
    exact ⟨BitVec.toNat_add q.elapsed 1, if_congr (or_congr_left BitVec.toNat_eq) rfl rfl⟩
  · rw [seqStepSt_of_inactive hact]
    exact ⟨rfl, rfl⟩

end Sys2Proof.Machine
end

section
/-! PROOFS. The arithmetic stages: what narrowing and saturation make of an exact value, and what VCA.STEP, MIX.STEP and
REV.STEP leave in their node (45_vca_mixer_reverb R400 to R406). -/

namespace Sys2Proof.Machine

/-! ### Saturation and narrowing (R16, R400) -/

theorem clamp_eq_max_min {lo hi : Int} (h : lo ≤ hi) (v : Int) : clamp v lo hi = max lo (min hi v) := by
  unfold clamp
  split_ifs <;> omega

theorem sat16_eq_max_min (v : Int) : sat16 v = BitVec.ofInt 16 (max (-32768) (min 32767 v)) := by
  rw [sat16, clamp_eq_max_min (by decide)]

theorem sat16_of_mem_range {v : Int} (hlo : -32768 ≤ v) (hhi : v ≤ 32767) : sat16 v = trunc16 v := by
  rw [sat16_eq_max_min, min_eq_right hhi, max_eq_right hlo, trunc16]

/-- R403: the saturated value in the three cases of the clamp. -/
theorem sat16_eq_ite (v : Int) :
    sat16 v = if 32767 < v then 0x7FFF else if v < -32768 then 0x8000 else BitVec.ofInt 16 v := by
  by_cases hhi : 32767 < v
  · rw [if_pos hhi, sat16_eq_max_min, min_eq_left hhi.le]
    rfl
  by_cases hlo : v < -32768
  · rw [if_neg hhi, if_pos hlo, sat16_eq_max_min, max_eq_left (min_le_of_right_le hlo.le)]
    rfl
  · rw [if_neg hhi, if_neg hlo]
    exact sat16_of_mem_range (Int.not_lt.1 hlo) (Int.not_lt.1 hhi)

theorem narrow16_of_wrap {c : Config} (h : c.narrow = .wrap) (p : Int) : narrow16 c p = trunc16 p := by
  rw [narrow16, h]

theorem narrow16_of_sat {c : Config} (h : c.narrow = .sat) (p : Int) : narrow16 c p = sat16 p := by
  rw [narrow16, h]

/-- R400: both settings of VCA_NARROW truncate a value in the range of a port word. -/
theorem narrow16_of_mem_range (c : Config) {p : Int} (hlo : -32768 ≤ p) (hhi : p ≤ 32767) :
    narrow16 c p = trunc16 p := by
  cases h : c.narrow with
  | wrap => exact narrow16_of_wrap h p
  | sat => rw [narrow16_of_sat h, sat16_of_mem_range hlo hhi]

theorem toInt_trunc16 {p : Int} (hlo : -32768 ≤ p) (hhi : p ≤ 32767) : (trunc16 p).toInt = p :=
  BitVec.toInt_ofInt_eq_self (by decide) hlo (Int.lt_add_one_of_le hhi)

/-- R401: of the values a product takes, the two narrowings part at the one beyond the largest port word. -/
theorem trunc16_ne_sat16_iff {p : Int} (hlo : -32768 ≤ p) (hhi : p ≤ 32768) : trunc16 p ≠ sat16 p ↔ p = 32768 := by
  constructor
  · intro hne
    by_contra hp
    exact hne (sat16_of_mem_range hlo (by omega)).symm
  · rintro rfl
    decide

/-! ### The product of VCA.STEP (R401) -/

theorem mulq15_comm (a b : Word) : mulq15 a b = mulq15 b a := by
  rw [mulq15, mulq15, mul_comm]

theorem mulq15_zero_right (a : Word) : mulq15 a 0 = 0 := by
  simp [mulq15, s16, asr]

/-- R401: the product leaves the range of a port word only for the square of the smallest one. -/
theorem mulq15_eq_max_iff (a b : Word) : mulq15 a b = 32768 ↔ a = 0x8000 ∧ b = 0x8000 := by
  constructor
  · intro h
    have ha : -32768 ≤ a.toInt := a.le_toInt
    have ha' : a.toInt < 32768 := a.toInt_lt
    have hb : -32768 ≤ b.toInt := b.le_toInt
    have hb' : b.toInt < 32768 := b.toInt_lt
    have hquot : a.toInt * b.toInt / 32768 = 32768 := h
    have hprod : 32768 * 32768 ≤ a.toInt * b.toInt := by omega
    have hneg : a.toInt < 0 := by
      by_contra hpos
      nlinarith
    exact ⟨BitVec.eq_of_toInt_eq (show a.toInt = -32768 by nlinarith),
      BitVec.eq_of_toInt_eq (show b.toInt = -32768 by nlinarith)⟩
  · rintro ⟨rfl, rfl⟩
    decide

/-- R401: a factor from 0 to below 1 does not raise the magnitude of the other. -/
theorem abs_mulq15_le {a : Word} (ha : 0 ≤ a.toInt) (b : Word) : |mulq15 a b| ≤ |b.toInt| := by
  have hlt : a.toInt < 2 ^ 15 := a.toInt_lt
  obtain ⟨m, hlo, hhi, hm⟩ : ∃ m : Int, -2 ^ 15 ≤ m ∧ m ≤ 2 ^ 15 ∧ a.toInt * b.toInt = m * |b.toInt| := by
    rcases abs_choice b.toInt with habs | habs
    · exact ⟨a.toInt, by omega, by omega, by rw [habs]⟩
    · exact ⟨-a.toInt, by omega, by omega, by rw [habs, neg_mul_neg]⟩
  rw [mulq15, s16, s16, hm]
  exact abs_le.2 (asr_mul_mem_range hlo hhi (abs_nonneg _))

/-- R401: narrowing keeps the product of a control that is not negative. -/
theorem toInt_narrow16_mulq15 (c : Config) {a : Word} (ha : 0 ≤ a.toInt) (b : Word) :
    (narrow16 c (mulq15 a b)).toInt = mulq15 a b := by
  obtain ⟨hlo, hhi⟩ := mulq15_mem_range a b
  have hne : mulq15 a b ≠ 32768 := by
    intro hmax
    rw [((mulq15_eq_max_iff a b).1 hmax).1] at ha
    exact absurd ha (by decide)
  rw [narrow16_of_mem_range c (by omega) (by omega), toInt_trunc16 (by omega) (by omega)]

/-! ### VCA.STEP, MIX.STEP and REV.STEP of the operand node -/

section Node

variable {s : State} {n : Node}

theorem exec_vcaStep_of (hn : s.nodes[s.opr.node]? = some n) (hb : n.body = .vca) :
    exec .vcaStep s = .next (Claims.putNode s s.opr.node (vcaStepNode s.cfg n)) :=
  onOperandNode_of hn (by rw [asVcaStep, hb])

theorem exec_mixStep_of (hn : s.nodes[s.opr.node]? = some n) (hb : n.body = .mix) :
    exec .mixStep s = .next (Claims.putNode s s.opr.node (mixStepNode n)) :=
  onOperandNode_of hn (by rw [asMixStep, hb])

theorem exec_revStep_of {nc : NodeCfg} {tcs : List TapCfg} {ts : List TapSt} (hn : s.nodes[s.opr.node]? = some n)
    (hb : n.body = .rev ts) (hc : s.cfg.nodes[s.opr.node]? = some nc) (hk : nc.kcfg = .rev tcs) :
    exec .revStep s = .next (Claims.putNode s s.opr.node (revStepNode tcs n ts)) :=
  onOperandNode_of hn (by rw [asRevStep, hb, tapsOf_rev hc hk])

/-- R400: the output register of a VCA node after the step. -/
theorem outp_vcaStepNode (c : Config) (h : 0 < n.outs.length) :
    outp (vcaStepNode c n) 0 = narrow16 c (mulq15 (inp n 0) (inp n 1)) := by
  simp [outp, vcaStepNode, setOut, pOut, pAmpCv, pInCv, h]

end Node

/-- Settles O40: VCA_NARROW says which narrowing the product takes. -/
theorem vcaStepMultiplies : Obligations.VcaStepMultiplies := by
  intro s n hn hb p
  refine ⟨fun hwrap => ?_, fun hsat => ?_⟩
  · rw [exec_vcaStep_of hn hb, vcaStepNode, narrow16_of_wrap hwrap]
    rfl
  · rw [exec_vcaStep_of hn hb, vcaStepNode, narrow16_of_sat hsat, sat16_eq_max_min]
    rfl

/-- Settles O41: the output is the narrowed product, which only the square of 0x8000 takes out of range. -/
theorem vcaNeverAmplifies : Obligations.VcaNeverAmplifies := by
  intro c n a b out
  have hout (d : Config) (x y : Word) : out d x y = narrow16 d (mulq15 x y) := outp_vcaStepNode d Nat.one_pos
  have hzero (x : Word) : out c x 0 = 0 := by
    rw [hout, mulq15_zero_right, narrow16_of_mem_range c (by decide) (by decide)]
    rfl
  have hcomm (x y : Word) : out c x y = out c y x := by rw [hout, hout, mulq15_comm]
  obtain ⟨hlo, hhi⟩ := mulq15_mem_range a b
  refine ⟨hcomm a b, hzero a, (hcomm 0 b).trans (hzero b), fun ha => ?_, ?_, by decide⟩
  · rw [hout, toInt_narrow16_mulq15 c ha]
    exact abs_mulq15_le ha b
  · rw [hout, hout, narrow16_of_wrap rfl, narrow16_of_sat rfl, trunc16_ne_sat16_iff (by omega) hhi, mulq15_eq_max_iff]

/-- Settles O42: the saturation of the sum, case by case. -/
theorem mixStepSaturatesTheSum : Obligations.MixStepSaturatesTheSum := by
  intro s n hn hb p1 p2
  rw [exec_mixStep_of hn hb, mixStepNode, sat16_eq_ite]
  rfl

/-! ### The loop over the taps (R404) -/

theorem revTaps_eq_zipWith (x : Int) {tcs : List TapCfg} {ts : List TapSt} (h : tcs.length = ts.length) :
    revTaps x tcs ts =
      ((List.zipWith (fun tc t => tapTerm x (s16 tc.gain) (tapDelayed t)) tcs ts).sum,
        List.zipWith (tapNext x) tcs ts) := by
  induction tcs generalizing ts with
  | nil =>
    obtain rfl := List.eq_nil_of_length_eq_zero h.symm
    rfl
  | cons tc tcs ih =>
    cases ts with
    | nil => simp at h
    | cons t ts => simp [revTaps, ih (Nat.succ.inj h)]

theorem tapNext_eq (x : Int) (tc : TapCfg) (t : TapSt) : tapNext x tc t =
    { buf := t.buf.set t.pos
        (BitVec.ofInt 16 (max (-32768) (min 32767 (x + tc.gain.toInt * (t.buf.getD t.pos 0).toInt / 32768))))
      pos := (t.pos + 1) % tc.len } := by
  rw [tapNext, sat16_eq_max_min]
  rfl

/-- Settles O43: the loop's two results are the sum of the terms and the list of the next taps. -/
theorem revStepRunsEveryTap : Obligations.RevStepRunsEveryTap := by
  intro s n nc tcs ts hn hb hc hk hlen x d term next
  have hnext : tapNext x = next := funext₂ (tapNext_eq x)
  rw [exec_revStep_of hn hb hc hk, revStepNode, revTaps_eq_zipWith _ hlen, sat16_eq_max_min, ← hnext]
  rfl

/-! ### The delay of a tap (R404 to R406) -/

/-- A tap after a run of steps, one input after the other. -/
def tapRun (tc : TapCfg) (t : TapSt) (xs : List Int) : TapSt := xs.foldl (fun u y => tapNext y tc u) t

theorem tapRun_cons (tc : TapCfg) (t : TapSt) (x : Int) (xs : List Int) :
    tapRun tc t (x :: xs) = tapRun tc (tapNext x tc t) xs := rfl

section Run

variable {tc : TapCfg} {t : TapSt}

/-- R405: every step of a run moves the position on by one, modulo the length. -/
theorem tapRun_pos (hp : t.pos < tc.len) (xs : List Int) : (tapRun tc t xs).pos = (t.pos + xs.length) % tc.len := by
  induction xs generalizing t with
  | nil => exact (Nat.mod_eq_of_lt hp).symm
  | cons x xs ih =>
    have hnext : (tapNext x tc t).pos < tc.len := Nat.mod_lt _ (Nat.zero_lt_of_lt hp)
    rw [tapRun_cons, ih hnext]
    change ((t.pos + 1) % tc.len + xs.length) % tc.len = _
    rw [Nat.mod_add_mod, List.length_cons, add_assoc, add_comm 1]

/-- R404: a run leaves an entry that its positions do not visit. -/
theorem memRead_tapRun (hp : t.pos < tc.len) {xs : List Int} {i : Nat}
    (hi : ∀ k < xs.length, (t.pos + k) % tc.len ≠ i) : memRead (tapRun tc t xs).buf i = memRead t.buf i := by
  induction xs generalizing t with
  | nil => rfl
  | cons x xs ih =>
    have hnext : (tapNext x tc t).pos < tc.len := Nat.mod_lt _ (Nat.zero_lt_of_lt hp)
    have hrest : ∀ k < xs.length, ((tapNext x tc t).pos + k) % tc.len ≠ i := by
      intro k hk
      change ((t.pos + 1) % tc.len + k) % tc.len ≠ i
      rw [Nat.mod_add_mod, add_assoc, add_comm 1]
      exact hi (k + 1) (by simpa using hk)
    have hne : i ≠ t.pos := by
      have hfirst := hi 0 (by simp)
      rw [add_zero, Nat.mod_eq_of_lt hp] at hfirst
      exact hfirst.symm
    rw [tapRun_cons, ih hnext hrest]
    exact memRead_memWrite_ne _ _ _ _ hne

end Run

/-- R405: a position comes back no sooner than after the whole length. -/
theorem add_mod_ne_self {p k len : Nat} (hk : 0 < k) (hlt : k < len) : (p + k) % len ≠ p := by
  intro h
  have hmod : p + k ≡ p [MOD len] := (Nat.mod_mod _ _).symm.trans (congrArg (· % len) h)
  exact absurd (Nat.le_of_dvd hk (Nat.add_modEq_left_iff.1 hmod)) (Nat.not_le.2 hlt)

/-- Settles O44: the run comes back to the entry of its first step, which its other steps leave. -/
theorem revTapDelaysByItsLength : Obligations.RevTapDelaysByItsLength := by
  intro tc t x xs ⟨hbuf, hp⟩ hlen
  have hp' : (tapNext x tc t).pos < tc.len := (tapNext_wf x tc t hbuf hp).2
  have hback : (tapRun tc (tapNext x tc t) xs).pos = t.pos := by
    change (tapRun tc t (x :: xs)).pos = t.pos
    rw [tapRun_pos hp, List.length_cons, hlen, Nat.add_mod_right, Nat.mod_eq_of_lt hp]
  have hkept : memRead (tapRun tc (tapNext x tc t) xs).buf t.pos = memRead (tapNext x tc t).buf t.pos := by
    refine memRead_tapRun hp' fun k hk => ?_
    change ((t.pos + 1) % tc.len + k) % tc.len ≠ t.pos
    rw [Nat.mod_add_mod, add_assoc]
    exact add_mod_ne_self (by omega) (by omega)
  have hstored : memRead (tapNext x tc t).buf t.pos = sat16 (x + tc.gain.toInt * tapDelayed t / 32768) :=
    memRead_memWrite_same _ _ _ (hp.trans_eq hbuf.symm)
  change s16 (memRead (tapRun tc (tapNext x tc t) xs).buf (tapRun tc (tapNext x tc t) xs).pos) = _
  rw [hback, hkept, hstored, s16]

end Sys2Proof.Machine
end

section
/-! PROOFS. The engine family: the reasons of ENG.VALIDATE and the graph it resolves (46_engine R440, R441), the wires
(R453, R454), the phases of an iteration and its tick (R450, R452, R455, R456), and what HALTED keeps (R458). -/

namespace Sys2Proof.Machine

/-! ### The emission (R455) -/

/-- R46: the beat of a SEQ node. -/
def seqBeat? (n : Node) : Option (BitVec 4) :=
  match n.body with
  | .seq q => some q.beat
  | _ => none

/-- R46: the first SEQ node's beat, as a search of the node list. -/
theorem firstSeqBeat_eq_findSome? (ns : List Node) : firstSeqBeat ns = ns.findSome? seqBeat? := by
  induction ns with
  | nil => rfl
  | cons n ns ih => cases hb : n.body <;> simp [firstSeqBeat, seqBeat?, hb, ih]

/-- R46: without a SEQ node BEAT_INDEX is 0. -/
theorem beatWord_eq (ns : List Node) : beatWord ns = ((ns.findSome? seqBeat?).getD 0).setWidth 32 := by
  unfold beatWord
  rw [firstSeqBeat_eq_findSome?]
  cases ns.findSome? seqBeat? with
  | none => rfl
  | some b => rfl

/-- R455: the sample is what the OUTPUT port reads on the OUTPUT node. -/
theorem outputSample_of {s : State} {n : Node} (hn : s.nodes[s.graph.outNode]? = some n) :
    outputSample s = readPort n s.graph.outPort := by
  simp only [outputSample, hn]

/-- Settles O47: the three words ENG.EMIT writes are the OUTPUT port's sample, twice, and the first SEQ node's beat. -/
theorem emitAppendsOneSample : Obligations.EmitAppendsOneSample := by
  intro s n v hn hv
  have hsample : outputSample s = v := by
    rw [outputSample_of hn, hv]
    cases s.graph.outPort <;> rfl
  change Host.Outcome.next (emit s) = _
  rw [emit, hsample, beatWord_eq]
  rfl

/-! ### The wires (R453, R454) -/

/-- R453: what a wire carries: its source port as the registers stand, or 0. -/
def wireValue (ns : List Node) (w : RWire) : Word :=
  match ns[w.src]? with
  | none => 0
  | some n => readPort n w.srcPort

/-- R454: whether a wire ends at latch p of node d. -/
def targets (d p : Nat) (w : RWire) : Bool := w.dst == d && w.dstPort == some p

theorem targets_iff {d p : Nat} {w : RWire} : targets d p w = true ↔ w.dst = d ∧ w.dstPort = some p := by
  simp [targets]

/-- R453: a wire writes its value to the port it ends at. -/
theorem propagateWire_eq (ns : List Node) (w : RWire) :
    propagateWire ns w = ns.modify w.dst fun n => writePort n w.dstPort (wireValue ns w) := rfl

theorem writePort_ins_length (n : Node) (r : PortRef) (v : Word) : (writePort n r v).ins.length = n.ins.length := by
  cases r with
  | none => rfl
  | some k => exact List.length_set

/-- R261: a port write reaches the one latch it names. -/
theorem writePort_ins_getElem? {n : Node} {p : Nat} (hp : p < n.ins.length) (r : PortRef) (v : Word) :
    (writePort n r v).ins[p]? = if r = some p then some v else n.ins[p]? := by
  cases r with
  | none => rfl
  | some k =>
    simp only [writePort, setIn_ins, List.getElem?_set, Option.some.injEq]
    split
    · rw [if_pos (by omega)]
    · rfl

/-- R453: no wire changes what another carries, for none writes an output register. -/
theorem wireValue_propagateWires (ws : List RWire) (ns : List Node) (w : RWire) :
    wireValue (ws.foldl propagateWire ns) w = wireValue ns w := by
  cases hn : ns[w.src]? with
  | none =>
    have hnone : (ws.foldl propagateWire ns)[w.src]? = none := by
      rw [List.getElem?_eq_none_iff, propagateWires_length]
      exact List.getElem?_eq_none_iff.1 hn
    simp only [wireValue, hn, hnone]
  | some n =>
    obtain ⟨m, hm, houts, -⟩ := propagateWires_getElem? ws ns w.src n hn
    simp only [wireValue, hn, hm, readPort, outp, houts]

/-- R454: the last of the wires to a latch determines it; a latch without one keeps its value. -/
theorem propagateWires_ins (ws : List RWire) {ns : List Node} {d : Nat} {n : Node} (hn : ns[d]? = some n) :
    ∃ m, (ws.foldl propagateWire ns)[d]? = some m ∧ m.ins.length = n.ins.length ∧
      ∀ p, p < n.ins.length →
        m.ins[p]? = ((ws.filter (targets d p)).getLast?.map (wireValue ns)).or n.ins[p]? := by
  induction ws using List.reverseRecOn with
  | nil => exact ⟨n, hn, rfl, fun p _ => rfl⟩
  | append_singleton pre w ih =>
    obtain ⟨m, hm, hlen, hins⟩ := ih
    rw [List.foldl_append, List.foldl_cons, List.foldl_nil, propagateWire_eq, wireValue_propagateWires,
      List.getElem?_modify, hm]
    refine ⟨_, rfl, ?_, fun p hp => ?_⟩
    · split
      · rw [writePort_ins_length, hlen]
      · exact hlen
    · rw [List.filter_append, List.getLast?_append]
      by_cases ht : targets d p w
      · obtain ⟨hd, hport⟩ := targets_iff.1 ht
        simp [ht, hd, hport, writePort_ins_getElem? (hlen.symm ▸ hp)]
      · have hkept : (if w.dst = d then writePort m w.dstPort (wireValue ns w) else m).ins[p]? = m.ins[p]? := by
          split
          · rw [writePort_ins_getElem? (hlen.symm ▸ hp), if_neg fun hport => ht (targets_iff.2 ⟨‹_›, hport⟩)]
          · rfl
        simpa [ht, hins p hp] using hkept

/-- Settles O46: the wires leave every output register, so each carries what it did at first, and of those to one latch the
last one's value stays. -/
theorem lastWireToALatchWins : Obligations.LastWireToALatchWins := by
  intro s
  refine ⟨s.graph.wires.foldl propagateWire s.nodes, rfl, propagateWires_length _ _, fun d n m hn hm => ?_⟩
  obtain ⟨m₁, hm₁, houts, hbody⟩ := propagateWires_getElem? s.graph.wires s.nodes d n hn
  obtain rfl : m₁ = m := Option.some.inj (hm₁.symm.trans hm)
  obtain ⟨m₂, hm₂, hlen, hins⟩ := propagateWires_ins s.graph.wires hn
  obtain rfl : m₂ = m₁ := Option.some.inj (hm₂.symm.trans hm₁)
  refine ⟨houts, hbody, hlen, fun p hp => ?_⟩
  rw [hins p hp]
  change _ = match (s.graph.wires.filter (targets d p)).getLast? with
    | none => _
    | some w => _
  cases (s.graph.wires.filter (targets d p)).getLast? with
  | none => rfl
  | some w => rfl

/-! ### The checks of ENG.VALIDATE (R440) -/

theorem hasDuplicate_eq_true_iff {l : List String} : hasDuplicate l = true ↔ ¬ l.Nodup := by
  induction l with
  | nil => simp [hasDuplicate]
  | cons x xs ih => simp only [hasDuplicate, Bool.or_eq_true, List.contains_iff_mem, ih, List.nodup_cons]; tauto

theorem not_hasDuplicate {l : List String} (h : l.Nodup) : ¬ hasDuplicate l = true :=
  fun hdup => hasDuplicate_eq_true_iff.1 hdup h

/-- R440: a node of the configuration has this name. -/
abbrev Named (c : Config) (x : String) : Prop := ∃ nc ∈ c.nodes, nc.name = x

theorem nodeIndex_eq_none {c : Config} {x : String} (h : ¬ Named c x) : nodeIndex c x = none :=
  nodeIndex_of_unnamed fun nc hnc hx => h ⟨nc, hnc, hx⟩

theorem exists_nodeIndex {c : Config} {x : String} (h : Named c x) : ∃ i, nodeIndex c x = some i := by
  obtain ⟨nc, hnc, rfl⟩ := h
  refine Option.isSome_iff_exists.1 ?_
  rw [nodeIndex, List.findIdx?_isSome, List.any_eq_true]
  exact ⟨nc, hnc, beq_self_eq_true _⟩

/-- R440 BAD_TAPS, as a condition on the configured taps. -/
theorem badTaps_eq_false_iff (nc : NodeCfg) : badTaps nc = false ↔
    ∀ tcs, nc.kcfg = .rev tcs → tcs ≠ [] ∧ ∀ tc ∈ tcs, 1 ≤ tc.len ∧ tc.len ≤ 65535 := by
  cases hk : nc.kcfg
  case rev ts => simp [badTaps, hk, Nat.one_le_iff_ne_zero]
  all_goals simp [badTaps, hk]

/-- R440 BAD_KCFG: only an OSC whose waveform is none of the six. -/
theorem badKcfg_eq_false_iff (nc : NodeCfg) : badKcfg nc = false ↔ ∀ x, nc.kcfg ≠ .osc (.unknown x) := by
  cases hk : nc.kcfg
  case osc w => cases w <;> simp [badKcfg, hk]
  all_goals simp [badKcfg, hk]

/-! ### Resolution (R441) -/

/-- R187: a name resolves to its position among distinct names, and a name that is none of them to the null port. -/
theorem portRef_eq_some_iff {ports : List String} (h : ports.Nodup) {name : String} {k : Nat} :
    portRef ports name = some k ↔ ports[k]? = some name := by
  unfold portRef
  rw [List.findIdx?_eq_some_iff_getElem, List.getElem?_eq_some_iff]
  refine exists_congr fun hk => ⟨fun hfirst => by simpa using hfirst.1, fun hname => ⟨by simpa using hname, fun j hj => ?_⟩⟩
  have hne : ports[j] ≠ ports[k] := fun heq => hj.ne ((h.getElem_inj_iff).1 heq)
  simpa [hname] using hne

theorem outPorts_nodup (k : Kind) : (outPorts k).Nodup := by cases k <;> decide

theorem inPorts_nodup (k : Kind) : (inPorts k).Nodup := by cases k <;> decide

/-- R441: the node index of a port's node, with its port's position among the ports of that node's kind. -/
theorem port_of_nodeIndex {c : Config} {ports : Kind → List String} (hports : ∀ k, (ports k).Nodup) {pn : PortName}
    {i : Nat} (h : nodeIndex c pn.node = some i) :
    Claims.Port c ports pn i ((kindAt c i).bind fun k => portRef (ports k) pn.port) := by
  obtain ⟨hi, hname, -⟩ := List.findIdx?_eq_some_iff_getElem.1 h
  have hget : c.nodes[i]? = some c.nodes[i] := List.getElem?_eq_getElem hi
  refine ⟨c.nodes[i], hget, by simpa using hname, fun k => ?_⟩
  simp only [kindAt, hget, Option.map_some, Option.bind_some]
  exact portRef_eq_some_iff (hports _)

/-- R440: both ends of a wire name registered nodes. -/
abbrev WireNamed (c : Config) (w : WireCfg) : Prop := Named c w.src.node ∧ Named c w.dst.node

/-- R441: wires between registered nodes resolve, one by one. -/
theorem resolveWires_ok {c : Config} {ws : List WireCfg} (h : ∀ w ∈ ws, WireNamed c w) :
    ∃ rs, resolveWires c ws = .ok rs ∧
      List.Forall₂ (fun w r => Claims.Port c outPorts w.src r.src r.srcPort ∧
        Claims.Port c inPorts w.dst r.dst r.dstPort) ws rs := by
  induction ws with
  | nil => exact ⟨[], rfl, .nil⟩
  | cons w ws ih =>
    obtain ⟨⟨hsrc, hdst⟩, hws⟩ := List.forall_mem_cons.1 h
    obtain ⟨rs, hrs, hall⟩ := ih hws
    obtain ⟨si, hsi⟩ := exists_nodeIndex hsrc
    obtain ⟨di, hdi⟩ := exists_nodeIndex hdst
    refine ⟨_, by simp only [resolveWires, hsi, hdi, hrs]; rfl, .cons ⟨?_, ?_⟩ hall⟩
    · exact port_of_nodeIndex outPorts_nodup hsi
    · exact port_of_nodeIndex inPorts_nodup hdi

/-- R440: the wires before a wire that does not resolve do not change the reason. -/
theorem resolveWires_append {c : Config} {pre post : List WireCfg} {r : RejectReason}
    (hpre : ∀ v ∈ pre, WireNamed c v) (h : resolveWires c post = .error r) :
    resolveWires c (pre ++ post) = .error r := by
  induction pre with
  | nil => exact h
  | cons v pre ih =>
    obtain ⟨⟨hsrc, hdst⟩, hrest⟩ := List.forall_mem_cons.1 hpre
    obtain ⟨si, hsi⟩ := exists_nodeIndex hsrc
    obtain ⟨di, hdi⟩ := exists_nodeIndex hdst
    simp only [List.cons_append, resolveWires, hsi, hdi, ih hrest]

theorem resolveWires_badSource {c : Config} {w : WireCfg} (ws : List WireCfg) (h : ¬ Named c w.src.node) :
    resolveWires c (w :: ws) = .error .unresolvedWireSource := by
  simp only [resolveWires, nodeIndex_eq_none h]

theorem resolveWires_badDest {c : Config} {w : WireCfg} (ws : List WireCfg) (hsrc : Named c w.src.node)
    (hdst : ¬ Named c w.dst.node) : resolveWires c (w :: ws) = .error .unresolvedWireDest := by
  obtain ⟨si, hsi⟩ := exists_nodeIndex hsrc
  simp only [resolveWires, hsi, nodeIndex_eq_none hdst]

/-! ### ENG.VALIDATE -/

section Checks

variable {c : Config} (hlen : c.nodes.length ≤ 256) (hnames : (c.nodes.map (·.name)).Nodup)
include hlen hnames

/-- R440: past the checks of the nodes' number and names, the first wire that does not resolve gives the reason. -/
theorem validate_of_wireError {r : RejectReason} (hw : resolveWires c c.wires = .error r) : validate c = .error r := by
  simp only [validate, if_neg (Nat.not_lt.2 hlen), if_neg (not_hasDuplicate hnames), hw]

/-- R440: with the wires resolved, the output comes next. -/
theorem validate_of_outputError {rs : List RWire} (hw : resolveWires c c.wires = .ok rs)
    (ho : ¬ Named c c.output.node) : validate c = .error .unresolvedOutput := by
  simp only [validate, if_neg (Nat.not_lt.2 hlen), if_neg (not_hasDuplicate hnames), hw, nodeIndex_eq_none ho]

/-- R440, R441: with the wires and the output resolved, the tick period, the taps and the waveforms remain. -/
theorem validate_of_resolved {rs : List RWire} {oi : Nat} (hw : resolveWires c c.wires = .ok rs)
    (ho : nodeIndex c c.output.node = some oi) : validate c =
      if c.tickPeriod = 0 then .error .badTickPeriod
      else if c.nodes.any badTaps then .error .badTaps
      else if c.nodes.any badKcfg then .error .badKcfg
      else .ok
        { kinds := c.nodes.map fun nc => kcfgKind nc.kcfg
          inits := c.nodes.map initLatches
          wires := rs
          outNode := oi
          outPort := resolveOut c oi c.output.port } := by
  simp only [validate, if_neg (Nat.not_lt.2 hlen), if_neg (not_hasDuplicate hnames), hw, ho]

end Checks

/-- R440: a check of all nodes fails where one of them does not meet the condition it stands for. -/
theorem any_eq_true_iff_not_forall {bad : NodeCfg → Bool} {P : NodeCfg → Prop} (h : ∀ nc, bad nc = false ↔ P nc)
    (ns : List NodeCfg) : ns.any bad = true ↔ ¬ ∀ nc ∈ ns, P nc := by
  rw [← Bool.not_eq_false, List.any_eq_false]
  simp only [Bool.not_eq_true, h]

/-- R440, R443: the operation answers the graph or the reason. -/
theorem exec_engValidate (s : State) :
    (∀ g, validate s.cfg = .ok g → exec .engValidate s = .next { s with graph := g }) ∧
      ∀ r, validate s.cfg = .error r → exec .engValidate s = .refused (.rejected r) := by
  refine ⟨fun g h => ?_, fun r h => ?_⟩
  · simp only [exec, execEngValidate, h]
  · simp only [exec, execEngValidate, h]

/-- Settles O45: each check is reached once the ones before it are passed, and the resolved wires, output and latch values
are the graph of R441. -/
theorem validateChecksInOrder : Obligations.ValidateChecksInOrder := by
  refine ⟨exec_engValidate, fun c => ⟨fun hlen => if_pos hlen, fun hlen => ⟨fun hdup => ?_, fun hnames => ?_⟩⟩⟩
  · simp only [validate, if_neg (Nat.not_lt.2 hlen), if_pos (hasDuplicate_eq_true_iff.2 hdup)]
  have htaps := any_eq_true_iff_not_forall badTaps_eq_false_iff c.nodes
  have hkcfg := any_eq_true_iff_not_forall badKcfg_eq_false_iff c.nodes
  refine ⟨fun pre post w hsplit hpre => ⟨fun hsrc => ?_, fun hsrc hdst => ?_⟩, fun hwires ho => ?_,
    fun hwires ho ht => ?_, fun hwires ho ht hb => ?_, fun hwires ho ht hb hk => ?_, fun hwires ho ht hb hk => ?_⟩
  · refine validate_of_wireError hlen hnames ?_
    rw [hsplit]
    exact resolveWires_append hpre (resolveWires_badSource post hsrc)
  · refine validate_of_wireError hlen hnames ?_
    rw [hsplit]
    exact resolveWires_append hpre (resolveWires_badDest post hsrc hdst)
  all_goals obtain ⟨rs, hrs, hall⟩ := resolveWires_ok hwires
  · exact validate_of_outputError hlen hnames hrs ho
  all_goals
    obtain ⟨oi, hoi⟩ := exists_nodeIndex ho
    rw [validate_of_resolved hlen hnames hrs hoi]
  · rw [if_pos ht]
  · rw [if_neg ht, if_pos (htaps.2 hb)]
  · rw [if_neg ht, if_neg fun h => htaps.1 h hb, if_pos (hkcfg.2 hk)]
  · rw [if_neg ht, if_neg fun h => htaps.1 h hb, if_neg fun h => hkcfg.1 h hk]
    exact ⟨_, rfl, rfl, rfl, hall, port_of_nodeIndex outPorts_nodup hoi⟩

/-! ### The phases of an iteration (R450) -/

theorem iterate_of_halted {s : State} (h : s.run = false) : iterate s = s := by
  rcases iterate_cases s with ⟨-, he⟩ | ⟨hr, -⟩ | ⟨hr, -⟩
  · exact he
  · exact absurd hr (by simp [h])
  · exact absurd hr (by simp [h])

theorem iterate_of_closed {s : State} (hr : s.run = true) (hc : s.closed = true) : iterate s = drain s := by
  rcases iterate_cases s with ⟨h, -⟩ | ⟨-, -, he⟩ | ⟨-, h, -⟩
  · exact absurd h (by simp [hr])
  · exact he
  · exact absurd h (by simp [hc])

theorem iterate_of_open {s : State} (hr : s.run = true) (hc : s.closed = false) : iterate s = afterDrain (drain s) := by
  rcases iterate_cases s with ⟨h, -⟩ | ⟨-, h, -⟩ | ⟨-, -, he⟩
  · exact absurd h (by simp [hr])
  · exact absurd h (by simp [hc])
  · exact he

section Drain

variable (s : State)

/-- R485: a command leaves the number of nodes. -/
theorem applyCmd_nodes_length (i : Instr) : (applyCmd i s).nodes.length = s.nodes.length := by
  rcases applyCmd_cases i s with h | ⟨b, h⟩ | h | ⟨j, n, -, ⟨p, v, h⟩ | ⟨k, b, h⟩ | ⟨k, v, h⟩ | ⟨r, h⟩⟩ <;>
    rw [h] <;> simp

theorem applyWord_nodes_length (w : CmdWord) : (applyWord w s).nodes.length = s.nodes.length := by
  rcases applyWord_cases w s with ⟨i, -, h⟩ | ⟨b, h⟩ | h <;> rw [h]
  · exact applyCmd_nodes_length s i
  · rfl

theorem applyWords_nodes_length (ws : List CmdWord) :
    (ws.foldl (fun u w => applyWord w u) s).nodes.length = s.nodes.length := by
  induction ws generalizing s with
  | nil => rfl
  | cons w ws ih => rw [List.foldl_cons, ih, applyWord_nodes_length]

theorem drain_nodes_length : (drain s).nodes.length = s.nodes.length := applyWords_nodes_length _ s.cmdq

/-- R481: the drain leaves the configuration, the graph and every counter and register of the later phases. -/
theorem drain_keeps : (drain s).cfg = s.cfg ∧ (drain s).graph = s.graph ∧ (drain s).tickCtr = s.tickCtr ∧
    (drain s).bufCtr = s.bufCtr ∧ (drain s).sampleIndex = s.sampleIndex ∧ (drain s).outStream = s.outStream ∧
    (drain s).sampleOut = s.sampleOut ∧ (drain s).beatIndex = s.beatIndex ∧ (drain s).execTime = s.execTime := by
  obtain ⟨ns, e, a, d, h⟩ := drain_frame s
  rw [h]
  exact ⟨rfl, rfl, rfl, rfl, rfl, rfl, rfl, rfl, rfl⟩

/-- R452: TICK_CTR after it has fired or counted. -/
theorem tickCount_tickCtr_eq :
    (tickCount s).tickCtr = if s.tickCtr = 0 then s.cfg.tickPeriod - 1 else s.tickCtr - 1 := by
  simp only [tickCount_tickCtr, tickFires, decide_eq_true_eq]

/-- R450 (b), (c): the nodes after their STEPs and, in a tick iteration, their TICKs. -/
def visitedNodes : List Node := (tickPhase (stepAll s)).nodes

theorem visitedNodes_getElem? (i : Nat) : (visitedNodes s)[i]? = (s.nodes[i]?).map fun n =>
    if s.tickCtr = 0 then tickNode (stepNode s.cfg i n) else stepNode s.cfg i n := by
  by_cases h : s.tickCtr = 0
  · have hfires : tickFires (stepAll s) = true := decide_eq_true h
    simp only [visitedNodes, tickPhase, hfires, if_true, tickAll_getElem?, tickCount_nodes, stepAll_getElem?, if_pos h,
      Option.map_map]
    rfl
  · have hrests : ¬ tickFires (stepAll s) = true := fun hf => h (of_decide_eq_true hf)
    simp only [visitedNodes, tickPhase, if_neg hrests, tickCount_nodes, stepAll_getElem?, if_neg h]

theorem visitedNodes_length : (visitedNodes s).length = s.nodes.length := by
  unfold visitedNodes tickPhase
  split <;> simp [tickNodes_length, stepNodes_length]

/-- R450 (b), (c), R452: the state that phase (d) begins in. -/
def visited : State :=
  { s with
    nodes := visitedNodes s
    tickCtr := if s.tickCtr = 0 then s.cfg.tickPeriod - 1 else s.tickCtr - 1 }

theorem tickPhase_stepAll : tickPhase (stepAll s) = visited s := by
  have hctr := tickCount_tickCtr_eq s
  unfold visited visitedNodes
  rw [← hctr]
  unfold tickPhase
  split <;> rfl

/-- R450: past the drain come the visits of the nodes, the wires, the emission and the two counts. -/
theorem afterDrain_eq : afterDrain s =
    { execUpdate (emit (propagate (visited s))) with sampleIndex := s.sampleIndex + 1 } := by
  rw [afterDrain, tickPhase_stepAll]
  rfl

/-- R456: the update of EXEC_TIME, in the words of the statement. -/
theorem execUpdate_eq : execUpdate s =
    { s with
      bufCtr := if s.bufCtr.toNat + 1 = s.cfg.bufferLen then 0 else s.bufCtr + 1
      execTime := if s.bufCtr.toNat + 1 = s.cfg.bufferLen then Config.execTimeDraw s.draws else s.execTime
      draws := if s.bufCtr.toNat + 1 = s.cfg.bufferLen then s.draws + 1 else s.draws } := by
  simp only [execUpdate, bufferFull, decide_eq_true_eq]

end Drain

/-- Settles O49: an open iteration is the drain and `afterDrain_eq`, and the drain leaves every counter the later phases
read. -/
theorem iterationRunsItsPhasesInOrder : Obligations.IterationRunsItsPhasesInOrder := by
  intro s hr hc
  obtain ⟨hcfg, -, htick, hbuf, hidx, -, -, -, hexec⟩ := drain_keeps s
  refine ⟨drain s, visitedNodes (drain s), propagate (visited (drain s)), emit (propagate (visited (drain s))),
    Config.execTimeDraw (drain s).draws, rfl, visitedNodes_length _, fun i => ?_, ?_, rfl, ?_⟩
  · rw [visitedNodes_getElem?, hcfg, htick]
  · rw [← htick, ← hcfg]
    rfl
  · change Host.Outcome.next (iterate s) = _
    rw [iterate_of_open hr hc, afterDrain_eq, execUpdate_eq, ← hidx, ← hbuf, ← hcfg, ← hexec]
    rfl

/-- Settles O50: the three cases of `iterate_cases`. -/
theorem iterationEmitsOneSampleOrHalts : Obligations.IterationEmitsOneSampleOrHalts := by
  intro s
  obtain ⟨hcfg, hgraph, htick, hbuf, hidx, hstream, hsample, hbeat, hexec⟩ := drain_keeps s
  refine ⟨fun hr hc => ?_, fun hr hc => ?_, fun hr => congrArg Host.Outcome.next (iterate_of_halted hr)⟩
  · exact ⟨drain s, congrArg Host.Outcome.next (iterate_of_closed hr hc), by simp [hc], drain_cmdq s,
      (drain_closed s).trans hc, hstream, hsample, hbeat, hexec, hidx, htick, hbuf, rfl⟩
  · refine ⟨afterDrain (drain s), outputSample (propagate (visited (drain s))),
      congrArg Host.Outcome.next (iterate_of_open hr hc), ?_⟩
    have hlen : (propagate (visited (drain s))).nodes.length = s.nodes.length :=
      (propagateWires_length _ _).trans ((visitedNodes_length _).trans (drain_nodes_length s))
    rw [afterDrain_eq, ← hidx, ← hstream, ← hcfg, ← hgraph]
    exact ⟨by simp [visited, hr, hc], drain_cmdq s, (drain_closed s).trans hc, rfl, rfl, rfl, rfl, rfl, hlen⟩

/-! ### The tick (R452) -/

/-- R450: k iterations, one after the other, always answer a state. -/
theorem iterations_eq (k : Nat) (s : State) : Claims.iterations k s = some (iterate^[k] s) := by
  induction k generalizing s with
  | zero => rfl
  | succ k ih => exact ih (iterate s)

/-- R450, R452: an open iteration goes on running, counts itself and counts TICK_CTR down or reloads it. -/
theorem iterate_counts {s : State} (hr : s.run = true) (hc : s.closed = false) :
    (iterate s).run = true ∧ (iterate s).closed = false ∧ (iterate s).cfg = s.cfg ∧
      (iterate s).sampleIndex = s.sampleIndex + 1 ∧
      (iterate s).tickCtr = if s.tickCtr = 0 then s.cfg.tickPeriod - 1 else s.tickCtr - 1 := by
  obtain ⟨hcfg, -, htick, -, hidx, -⟩ := drain_keeps s
  rw [iterate_of_open hr hc, afterDrain_eq, ← hidx, ← htick, ← hcfg]
  exact ⟨by simp [visited, hr, hc], (drain_closed s).trans hc, rfl, rfl, rfl⟩

/-- What k iterations from a tick iteration of s have kept and counted: the iterations that TICK_CTR says are left before
the next tick fill up a whole number of periods. -/
structure TicksInStep (s : State) (k : Nat) (t : State) : Prop where
  run : t.run = true
  closed : t.closed = false
  cfg : t.cfg = s.cfg
  index : t.sampleIndex = s.sampleIndex + BitVec.ofNat 64 k
  below : t.tickCtr.toNat < s.cfg.tickPeriod.toNat
  period : s.cfg.tickPeriod.toNat ∣ k + t.tickCtr.toNat

namespace TicksInStep

variable {s t : State} {k : Nat}

/-- R452: TICK_CTR counts down to the tick, and the tick reloads it for one period less the tick iteration itself. -/
theorem iterate (h : TicksInStep s k t) : TicksInStep s (k + 1) (iterate t) := by
  obtain ⟨hrun, hclosed, hcfg, hidx, hctr⟩ := iterate_counts h.run h.closed
  rw [h.cfg] at hctr
  have hbelow := h.below
  have hcount : (Machine.iterate t).tickCtr.toNat < s.cfg.tickPeriod.toNat ∧
      s.cfg.tickPeriod.toNat ∣ k + 1 + (Machine.iterate t).tickCtr.toNat := by
    rw [hctr]
    split
    case isTrue hzero =>
      have hreload : (s.cfg.tickPeriod - 1).toNat + 1 = s.cfg.tickPeriod.toNat := by bv_omega
      have hk : s.cfg.tickPeriod.toNat ∣ k := by simpa [hzero] using h.period
      refine ⟨by omega, ?_⟩
      rw [add_assoc, add_comm 1, hreload]
      exact hk.add (dvd_refl _)
    case isFalse hpos =>
      have hdown : (t.tickCtr - 1).toNat + 1 = t.tickCtr.toNat := by bv_omega
      refine ⟨by omega, ?_⟩
      rw [add_assoc, add_comm 1, hdown]
      exact h.period
  exact
    { run := hrun
      closed := hclosed
      cfg := hcfg.trans h.cfg
      index := by rw [hidx, h.index, BitVec.ofNat_add, BitVec.add_assoc]; rfl
      below := hcount.1
      period := hcount.2 }

/-- R452: every number of iterations from a tick iteration keeps in step. -/
theorem iterations (hr : s.run = true) (hc : s.closed = false) (ht : s.tickCtr = 0) (hp : s.cfg.tickPeriod ≠ 0) (k : Nat) :
    TicksInStep s k (Machine.iterate^[k] s) := by
  induction k with
  | zero =>
    exact
      { run := hr
        closed := hc
        cfg := rfl
        index := by simp
        below := by rw [Function.iterate_zero, id_eq, ht]; bv_omega
        period := by simp [ht] }
  | succ k ih => rw [Function.iterate_succ_apply']; exact ih.iterate

/-- R452: the tick is due exactly after a whole number of periods. -/
theorem tickCtr_eq_zero_iff (h : TicksInStep s k t) : t.tickCtr = 0 ↔ k % s.cfg.tickPeriod.toNat = 0 := by
  rw [← Nat.dvd_iff_mod_eq_zero]
  refine ⟨fun hzero => by simpa [hzero] using h.period, fun hk => ?_⟩
  have hdvd : s.cfg.tickPeriod.toNat ∣ t.tickCtr.toNat := (Nat.dvd_add_right hk).1 h.period
  exact BitVec.eq_of_toNat_eq (Nat.eq_zero_of_dvd_of_lt hdvd h.below)

end TicksInStep

/-- R450, R453: an open iteration leaves every node with the outputs and private fields of its visit, since the wires write
input latches alone. -/
theorem iterate_nodes {s : State} (hr : s.run = true) (hc : s.closed = false) :
    (iterate s).nodes.length = (drain s).nodes.length ∧
      ∀ i n m, (drain s).nodes[i]? = some n → (iterate s).nodes[i]? = some m →
        let done := if s.tickCtr = 0 then tickNode (stepNode s.cfg i n) else stepNode s.cfg i n
        m.outs = done.outs ∧ m.body = done.body := by
  obtain ⟨hcfg, -, htick, -⟩ := drain_keeps s
  have hnodes : (iterate s).nodes = (drain s).graph.wires.foldl propagateWire (visitedNodes (drain s)) := by
    rw [iterate_of_open hr hc, afterDrain_eq]
    rfl
  rw [hnodes]
  refine ⟨(propagateWires_length _ _).trans (visitedNodes_length _), fun i n m hn hm => ?_⟩
  have hv := visitedNodes_getElem? (drain s) i
  rw [hn, hcfg, htick] at hv
  obtain ⟨m', hm', houts, hbody⟩ := propagateWires_getElem? (drain s).graph.wires _ i _ hv
  obtain rfl : m' = m := Option.some.inj (hm'.symm.trans hm)
  exact ⟨houts, hbody⟩

/-- Settles O51: k iterations keep in step with the period, and the next one visits the nodes as TICK_CTR says. -/
theorem tickFiresEveryPeriod : Obligations.TickFiresEveryPeriod := by
  intro s k hr hc ht hp
  have h := TicksInStep.iterations hr hc ht hp k
  obtain ⟨hlen, hnodes⟩ := iterate_nodes h.run h.closed
  simp only [h.cfg, h.tickCtr_eq_zero_iff] at hnodes
  exact ⟨iterate^[k] s, drain (iterate^[k] s), iterate (iterate^[k] s), iterations_eq k s, rfl, rfl, h.run, h.closed, h.cfg,
    h.index, decide_eq_decide.2 h.tickCtr_eq_zero_iff, hlen, hnodes⟩

/-! ### HALTED (R458, R482) -/

/-- R458: what no step in HALTED changes: RUN, the nodes, the samples, the counters and the host registers but STATUS. -/
structure SameRegisters (s t : State) : Prop where
  run : t.run = s.run
  nodes : t.nodes = s.nodes
  outStream : t.outStream = s.outStream
  sampleOut : t.sampleOut = s.sampleOut
  beatIndex : t.beatIndex = s.beatIndex
  execTime : t.execTime = s.execTime
  err : t.err = s.err
  tickCtr : t.tickCtr = s.tickCtr
  bufCtr : t.bufCtr = s.bufCtr
  sampleIndex : t.sampleIndex = s.sampleIndex

namespace SameRegisters

variable {s t : State}

theorem refl (s : State) : SameRegisters s s := ⟨rfl, rfl, rfl, rfl, rfl, rfl, rfl, rfl, rfl, rfl⟩

/-- R458: a strobe and an issued operation find the block halted; the actions of HOST and SINK write other fields. -/
theorem runEvent {e : Event} (hr : s.run = false) (he : runEvent e s = .next t) : SameRegisters s t := by
  rcases runEvent_next he with rfl | ⟨a, r, -, -, -, -, -, rfl⟩ | rfl | rfl | ⟨w, -, rfl⟩ | rfl | ⟨v, -, rfl⟩ | ⟨hrun, -⟩
  · rw [iterate_of_halted hr]
    exact refl s
  · exact { refl s with }
  · exact { refl s with }
  · exact refl _
  · exact { refl s with }
  · exact { refl s with }
  · exact { refl s with }
  · exact absurd hrun (by simp [hr])

theorem step (hr : s.run = false) (h : step s = .next t) : SameRegisters s t := by
  rcases step_next h with ⟨-, rfl⟩ | ⟨e, rest, u, -, hu, rfl⟩
  · rw [iterate_of_halted hr]
    exact { refl s with }
  · exact { runEvent (s := { s with agenda := rest }) hr hu with }

/-- R49: STATUS is made of RUN, CLOSED and whether CMDQ is empty. -/
theorem statusWord (h : SameRegisters s t) (hc : t.closed = s.closed) (hq : t.cmdq = s.cmdq) :
    statusWord t = statusWord s := by
  simp only [Machine.statusWord, h.run, hc, hq]

theorem hostReg (h : SameRegisters s t) (hstatus : Machine.statusWord t = Machine.statusWord s) (r : HostReg) :
    hostReg t r = hostReg s r := by
  cases r with
  | sampleOut => exact h.sampleOut
  | beatIndex => exact h.beatIndex
  | execTime => exact h.execTime
  | err => exact h.err
  | status => exact hstatus

end SameRegisters

/-- Settles O55: a step keeps the registers and the invariant, which says of both states that their channel is closed and
their queue empty. -/
theorem haltedKeepsEveryRegister : Obligations.HaltedKeepsEveryRegister := by
  intro s t hr hstep
  have h := SameRegisters.step hr hstep
  have hrt : t.run = false := h.run.trans hr
  refine ⟨hrt, h.nodes, h.outStream, h.sampleOut, h.beatIndex, h.execTime, h.err, h.tickCtr, h.bufCtr, h.sampleIndex,
    fun hinv => ?_⟩
  obtain ⟨hc, hq⟩ := hinv.halted hr
  obtain ⟨hct, hqt⟩ := (everyStepKeepsTheInvariant s t hinv hstep).halted hrt
  have hstatus := h.statusWord (hct.trans hc.symm) (hqt.trans hq.symm)
  exact ⟨hct, hqt, hstatus, h.hostReg hstatus⟩

end Sys2Proof.Machine
end

section
/-! PROOFS. The command family: what each command does to its target, which words set an error bit alone, that a command
applied twice does what it does once, and the queue with its drain. -/

namespace Sys2Proof.Machine

/-! ### Words that spell no command (R483, R484) -/

section Discarded

variable {w m : CmdWord} {i : Instr} (s : State)

theorem applyWord_of_ok (h : decodeCmd w = .ok i) : applyWord w s = applyCmd i s := by
  rw [applyWord, h]

theorem applyWord_of_error {e : DecodeError} (h : decodeCmd w = .error e) : applyWord w s = discardWord e s := by
  rw [applyWord, h]

/-- R175: a word whose opcode has no row. -/
theorem applyWord_of_cmdRow_none (h : cmdRow w = none) : applyWord w s = setErr .badOpcode s :=
  applyWord_of_error s (by rw [decodeCmd, h])

/-- R484: a word with a bit under the mask of its opcode's row. -/
theorem applyWord_of_reserved (hrow : cmdRow w = some (m, i)) (hm : w &&& m ≠ 0) :
    applyWord w s = setErr .reserved s := by
  refine applyWord_of_error s (e := .reservedBits) ?_
  simp only [decodeCmd, hrow, if_neg hm]

end Discarded

/-- R172, R175: an opcode outside the map has no row. -/
theorem cmdRow_eq_none {w : CmdWord}
    (h : (cmdOp w).toNat ∉ [0x01, 0x02, 0x03, 0x04, 0x05, 0x10, 0x11, 0x20, 0x21, 0x30]) : cmdRow w = none := by
  unfold cmdRow
  split
  case h_11 => rfl
  all_goals exact absurd ‹(cmdOp w).toNat = _› fun hop => h (by rw [hop]; decide)

/-- R172, R174: the opcodes of the first mask. -/
theorem cmdRow_scalar {w : CmdWord} (h : (cmdOp w).toNat ∈ [0x01, 0x02, 0x03, 0x04, 0x05, 0x20, 0x21]) :
    ∃ i, cmdRow w = some (mbzScalar, i) := by
  simp only [List.mem_cons, List.not_mem_nil, or_false] at h
  rcases h with h | h | h | h | h | h | h <;> exact ⟨_, by rw [cmdRow, h]; rfl⟩

/-- Settles O4: the opcode has no row, or a row whose mask the word meets. -/
theorem undecodableCommandSetsOneBit : Obligations.UndecodableCommandSetsOneBit := by
  intro w s
  refine ⟨fun hop => applyWord_of_cmdRow_none s (cmdRow_eq_none hop), fun hop hm => ?_, fun hop hm => ?_,
    fun hop hm => ?_, fun hop hm => ?_⟩
  · obtain ⟨i, hrow⟩ := cmdRow_scalar hop
    exact applyWord_of_reserved s hrow hm
  all_goals
    change (cmdOp w).toNat = _ at hop
    exact applyWord_of_reserved s (by rw [cmdRow, hop]; rfl) hm

/-! ### The commands on their target (R485 to R497) -/

section Target

variable {s : State} {k : Kind} {node elem : BitVec 8} {n : Node}

/-- R487 to R491, R494, R495: a latch command on a node of its kind. -/
theorem writeLatch_of (hn : s.nodes[node.toNat]? = some n) (hk : nodeKind n = k) (p : Nat) (v : Word) :
    writeLatch k node p v s = Claims.putNode s node.toNat { n with ins := n.ins.set p v } :=
  onTarget_of hn hk

theorem nodeKind_of_seq {q : SeqSt} (h : n.body = .seq q) : nodeKind n = .seq := by simp [nodeKind, h]

theorem nodeKind_of_osc {o : OscSt} (h : n.body = .osc o) : nodeKind n = .osc := by simp [nodeKind, h]

theorem mapSeq_of {q : SeqSt} (h : n.body = .seq q) (f : SeqSt → SeqSt) :
    mapSeq f n = { n with body := .seq (f q) } := by simp only [mapSeq, h]

theorem mapOsc_of {o : OscSt} (h : n.body = .osc o) (f : OscSt → OscSt) :
    mapOsc f n = { n with body := .osc (f o) } := by simp only [mapOsc, h]

/-- R486: a step command on a SEQ node and a step it has. -/
theorem writeStep_of (hn : s.nodes[node.toNat]? = some n) (hk : nodeKind n = .seq) (he : elem.toNat ≤ 15)
    (f : Nat → SeqSt → SeqSt) :
    writeStep node elem f s = setNode s node.toNat (mapSeq (f elem.toNat) n) := by
  rw [writeStep, onTarget_of hn hk, if_neg (Nat.not_lt.2 he)]

/-- R486: a step command on a SEQ node and a step it does not have. -/
theorem writeStep_badIndex (hn : s.nodes[node.toNat]? = some n) (hk : nodeKind n = .seq) (he : 15 < elem.toNat)
    (f : Nat → SeqSt → SeqSt) : writeStep node elem f s = setErr .badIndex s := by
  rw [writeStep, onTarget_of hn hk, if_pos he]

/-- R493: SET_GATELEN on a SEQ node writes one entry of its GATELEN. -/
theorem applyCmd_setGatelen {q : SeqSt} (hn : s.nodes[node.toNat]? = some n) (hb : n.body = .seq q)
    (he : elem.toNat ≤ 15) (v : Word) :
    applyCmd (.setGatelen node elem v) s = Claims.putNode s node.toNat
      { n with body := .seq { q with gatelen := q.gatelen.set elem.toNat v } } := by
  rw [applyCmd, applySetGatelen, writeStep_of hn (nodeKind_of_seq hb) he, mapSeq_of hb]
  rfl

variable {h : BitVec 32}

/-- R496, R497: a LOAD_WAVE that WSRC answers with a failure. -/
theorem applyLoadWave_fail (hn : s.nodes[node.toNat]? = some n) (hk : nodeKind n = .osc)
    (ha : nextAnswer s h = .fail) : applyLoadWave node h s = setErr .loadFail (takeAnswer s) := by
  rw [applyLoadWave, onTarget_of hn hk, ha]

/-- R496, R497: a LOAD_WAVE that WSRC answers with samples. -/
theorem applyLoadWave_samples {o : OscSt} {r : List Word} (hn : s.nodes[node.toNat]? = some n)
    (hb : n.body = .osc o) (ha : nextAnswer s h = .samples r) :
    applyLoadWave node h s = Claims.putNode (takeAnswer s) node.toNat
      { n with body := .osc { o with custom := copyInto (r.take (nTable s.cfg)) o.custom, wave := .custom } } := by
  rw [applyLoadWave, onTarget_of hn (nodeKind_of_osc hb), ha]
  dsimp only
  rw [mapOsc_of hb]
  rfl

end Target

/-- R496: the answer a LOAD_WAVE takes and the state it leaves, in the words of the statement. -/
theorem nextAnswer_takeAnswer {s s' : State} {h : BitVec 32} {a : WaveAnswer}
    (hs : (∃ rest, s.wsrcAnswers = a :: rest ∧ s' = { s with wsrcAnswers := rest }) ∨
      (s.wsrcAnswers = [] ∧ s' = { s with draws := s.draws + 1 } ∧
        a = if Config.wsrcFails s.draws h then .fail else .samples (Config.wsrcSamples s.draws h))) :
    nextAnswer s h = a ∧ takeAnswer s = s' := by
  rcases hs with ⟨rest, hans, rfl⟩ | ⟨hans, rfl, rfl⟩
  · simp only [nextAnswer, takeAnswer, hans, and_self]
  · simp only [nextAnswer, takeAnswer, hans, and_self]

/-- R497: an entry of CUSTOM after the copy of at most N_TABLE samples. -/
theorem copyInto_take_getElem? (r : List Word) {m : Memory} {i k : Nat} (hm : m.length = k) (hi : i < k) :
    (copyInto (r.take k) m)[i]? = if i < r.length then r[i]? else m[i]? := by
  rw [copyInto_getElem? _ _ _ (hi.trans_eq hm.symm), List.getElem?_take_of_lt hi, List.length_take]
  simp only [lt_min_iff, hi, true_and]

/-- Settles O13: WSRC's answer is a failure, or samples of which CUSTOM takes what it holds. -/
theorem loadWaveCopiesTheAnswer : Obligations.LoadWaveCopiesTheAnswer := by
  intro node h s n o hn hb hlen a s' hs
  obtain ⟨ha, rfl⟩ := nextAnswer_takeAnswer hs
  refine ⟨fun hfail => ?_, fun r hr => ?_⟩
  · rw [← takeAnswer_err s]
    exact congrArg Host.Outcome.next (applyLoadWave_fail hn (nodeKind_of_osc hb) (ha.trans hfail))
  · exact ⟨copyInto (r.take (nTable s.cfg)) o.custom,
      congrArg Host.Outcome.next (applyLoadWave_samples hn hb (ha.trans hr)),
      (copyInto_length _ _).trans hlen, fun i hi => copyInto_take_getElem? r hlen hi⟩

/-- Settles O11: each of these commands is a `writeLatch`. -/
theorem latchCommandWritesItsLatch : Obligations.LatchCommandWritesItsLatch := by
  intro node v s n hn
  have hlatch := fun {k : Kind} (hk : nodeKind n = k) (p : Nat) =>
    congrArg (Host.Outcome.next (φ := Fault) (ρ := Refusal)) (writeLatch_of hn hk p v)
  exact ⟨fun hk => ⟨hlatch hk 0, hlatch hk 1, hlatch hk 2, hlatch hk 3, hlatch hk 4⟩,
    fun hk => ⟨hlatch hk 0, hlatch hk 2⟩⟩

/-- Settles O12: the pattern bit reads as written and the others as before. -/
theorem seqCommandWritesItsEntry : Obligations.SeqCommandWritesItsEntry := by
  intro node elem b v s n q hn hb he
  refine ⟨⟨patWrite q.pattern elem.toNat b, congrArg Host.Outcome.next (applyCmd_setPattern hn hb he),
    fun j hj => patRead_patWrite q.pattern elem.toNat j b (by omega) hj⟩,
    congrArg Host.Outcome.next (applyCmd_setGatelen hn hb he v)⟩

/-- Settles O14: every command checks its target first, and a step command its element next. -/
theorem commandChecksSetOneBit : Obligations.CommandChecksSetOneBit := by
  intro node elem v b h s
  simp only [List.forall_mem_cons, List.not_mem_nil, false_implies, implies_true, and_true]
  have hbad := fun {k : Kind} {f : Node → State} (hk : ∀ n, s.nodes[node.toNat]? = some n → nodeKind n ≠ k) =>
    congrArg (Host.Outcome.next (φ := Fault) (ρ := Refusal)) (onTarget_bad (f := f) hk)
  refine ⟨fun hk => ⟨hbad hk, hbad hk, hbad hk, hbad hk, hbad hk⟩, fun hk => ⟨hbad hk, hbad hk⟩,
    fun hk => ⟨hbad hk, hbad hk, hbad hk⟩, fun n hn hk he => ⟨?_, ?_⟩⟩
  · exact congrArg Host.Outcome.next (writeStep_badIndex hn hk he _)
  · exact congrArg Host.Outcome.next (writeStep_badIndex hn hk he _)

/-! ### Commands applied twice (R499) -/

@[simp] theorem setErr_setErr (b : ErrBit) (s : State) : setErr b (setErr b s) = setErr b s := by
  simp only [setErr, errSet, BitVec.or_assoc, BitVec.or_self]

@[simp] theorem patWrite_patWrite (p : BitVec 16) (i : Nat) (b : Bool) :
    patWrite (patWrite p i b) i b = patWrite p i b := by
  cases b
  · simp only [patWrite, Bool.false_eq_true, if_false, BitVec.and_assoc, BitVec.and_self]
  · simp only [patWrite, if_true, BitVec.or_assoc, BitVec.or_self]

@[simp] theorem memWrite_memWrite (m : Memory) (i : Nat) (v : Word) :
    memWrite (memWrite m i v) i v = memWrite m i v := List.set_set v

@[simp] theorem setIn_setIn (n : Node) (p : Nat) (v : Word) : setIn (setIn n p v) p v = setIn n p v := by
  simp only [setIn, List.set_set]

@[simp] theorem nodeKind_mapSeq (f : SeqSt → SeqSt) (n : Node) : nodeKind (mapSeq f n) = nodeKind n := by
  cases h : n.body <;> simp [nodeKind, mapSeq, h]

theorem mapSeq_mapSeq {f : SeqSt → SeqSt} (hf : ∀ q, f (f q) = f q) (n : Node) :
    mapSeq f (mapSeq f n) = mapSeq f n := by
  cases h : n.body <;> simp [mapSeq, h, hf]

theorem setNode_getElem? {s : State} {i : Nat} {n : Node} (h : s.nodes[i]? = some n) (m : Node) :
    (setNode s i m).nodes[i]? = some m := putNode_getElem? h m

@[simp] theorem setNode_setNode (s : State) (i : Nat) (m m' : Node) : setNode (setNode s i m) i m' = setNode s i m' :=
  putNode_putNode s i m m'

section Twice

variable {k : Kind} {node elem : BitVec 8} {s : State}

/-- A command that found no target finds none again. -/
theorem onTarget_setErr_badTarget {f : Node → State}
    (h : ∀ n, s.nodes[node.toNat]? = some n → nodeKind n ≠ k) :
    onTarget k node f (setErr .badTarget s) = setErr .badTarget s :=
  (onTarget_bad (s := setErr .badTarget s) h).trans (setErr_setErr _ s)

/-- A command that replaced its target finds the new node, of the same kind, and replaces it by itself. -/
theorem onTarget_setNode {g : Node → Node} {n : Node} (hn : s.nodes[node.toNat]? = some n)
    (hk : nodeKind (g n) = k) (hg : g (g n) = g n) :
    onTarget k node (fun m => setNode (setNode s node.toNat (g n)) node.toNat (g m)) (setNode s node.toNat (g n)) =
      setNode s node.toNat (g n) := by
  rw [onTarget_of (setNode_getElem? hn (g n)) hk, hg, setNode_setNode]

theorem writeLatch_writeLatch (p : Nat) (v : Word) :
    writeLatch k node p v (writeLatch k node p v s) = writeLatch k node p v s := by
  rcases onTarget_cases k node (fun n => setNode s node.toNat (setIn n p v)) s with ⟨he, hno⟩ | ⟨n, hn, hk, he⟩
  · rw [show writeLatch k node p v s = setErr .badTarget s from he]
    exact onTarget_setErr_badTarget hno
  · rw [show writeLatch k node p v s = setNode s node.toNat (setIn n p v) from he]
    exact onTarget_setNode (g := fun n => setIn n p v) hn hk (setIn_setIn n p v)

theorem writeStep_writeStep {f : Nat → SeqSt → SeqSt} (hf : ∀ q, f elem.toNat (f elem.toNat q) = f elem.toNat q) :
    writeStep node elem f (writeStep node elem f s) = writeStep node elem f s := by
  by_cases hno : ∀ n, s.nodes[node.toNat]? = some n → nodeKind n ≠ .seq
  · rw [show writeStep node elem f s = setErr .badTarget s from onTarget_bad hno]
    exact onTarget_setErr_badTarget hno
  · push Not at hno
    obtain ⟨n, hn, hk⟩ := hno
    by_cases he : 15 < elem.toNat
    · rw [writeStep_badIndex hn hk he, writeStep_badIndex (s := setErr .badIndex s) hn hk he, setErr_setErr]
    · have hle := Nat.not_lt.1 he
      rw [writeStep_of hn hk hle,
        writeStep_of (setNode_getElem? hn _) ((nodeKind_mapSeq _ n).trans hk) hle, mapSeq_mapSeq hf, setNode_setNode]

end Twice

/-- R499: every command's rule but LOAD_WAVE's. -/
theorem applyCmd_applyCmd {i : Instr} (hi : ∀ node h, i ≠ .loadWave node h) (s : State) :
    applyCmd i (applyCmd i s) = applyCmd i s := by
  cases i with
  | loadWave node h => exact absurd rfl (hi node h)
  | setPattern node elem b => exact writeStep_writeStep fun q => by simp only [patWrite_patWrite]
  | setGatelen node elem v => exact writeStep_writeStep fun q => by simp only [memWrite_memWrite]
  | setEnvAttackFor node v => exact writeLatch_writeLatch pAttackFor v
  | setEnvAttackTo node v => exact writeLatch_writeLatch pAttackTo v
  | setEnvDecayFor node v => exact writeLatch_writeLatch pDecayFor v
  | setEnvSustainAt node v => exact writeLatch_writeLatch pSustainAt v
  | setEnvReleaseFor node v => exact writeLatch_writeLatch pReleaseFor v
  | setOscFreq node v => exact writeLatch_writeLatch pFreq v
  | setOscScale node v => exact writeLatch_writeLatch pModDepth v
  | _ => rfl

/-- R484: a discarded word sets the same bit again. -/
theorem discardWord_discardWord (e : DecodeError) (s : State) : discardWord e (discardWord e s) = discardWord e s := by
  cases e with
  | badOpcode => exact setErr_setErr .badOpcode s
  | reservedBits => exact setErr_setErr .reserved s
  | reservedNum => rfl
  | reservedDisp => rfl

/-- R172: a word that decodes to LOAD_WAVE has its opcode. -/
theorem cmdOp_of_decodeCmd_loadWave {w : CmdWord} {node : BitVec 8} {h : BitVec 32}
    (hdec : decodeCmd w = .ok (.loadWave node h)) : cmdOp w = 0x30 := by
  obtain ⟨m, hrow, hm⟩ := decodeCmd_eq_ok_iff.1 hdec
  obtain ⟨-, henc⟩ := encode_of_cmdRow hrow hm
  obtain rfl : encodeCmd 0x30 node 0 h = w := Item.cmd.inj henc
  exact cmdOp_encodeCmd 0x30 node 0 h

/-- Settles O15: a word decodes the same twice, to a command that is not LOAD_WAVE or to the same discard. -/
theorem commandsButLoadAreIdempotent : Obligations.CommandsButLoadAreIdempotent := by
  intro w s hop
  cases hdec : decodeCmd w with
  | error e => simp only [applyWord_of_error _ hdec, discardWord_discardWord]
  | ok i =>
    simp only [applyWord_of_ok _ hdec]
    refine applyCmd_applyCmd (fun node h hi => hop ?_) s
    exact congrArg BitVec.toNat (cmdOp_of_decodeCmd_loadWave (hi ▸ hdec))

/-! ### The queue (R480 to R482) -/

/-- A queue replaced by itself. -/
theorem setCmdq_self {s : State} {ws : List CmdWord} (h : s.cmdq = ws) : { s with cmdq := ws } = s := by
  rw [← h]

@[simp] theorem applyWord_cmdq (w : CmdWord) (s : State) : (applyWord w s).cmdq = s.cmdq := by
  obtain ⟨ns, e, a, d, h⟩ := applyWord_frame w s
  rw [h]

/-- R481, R482: the drain of an empty queue. -/
theorem drain_nil {s : State} (h : s.cmdq = []) : drain s = { s with run := if s.closed then false else s.run } := by
  simp only [drain, h, List.foldl_nil]

/-- R481: the drain applies the oldest word first; that word leaves the queue alone. -/
theorem drain_cons {s : State} {w : CmdWord} {ws : List CmdWord} (h : s.cmdq = w :: ws) :
    drain s = drain { applyWord w { s with cmdq := [] } with cmdq := ws } := by
  have hq : { applyWord w { s with cmdq := [] } with cmdq := [] } = applyWord w { s with cmdq := [] } :=
    setCmdq_self (applyWord_cmdq w _)
  simp only [drain, h, List.foldl_cons, hq]

/-- Settles O16: ENG.DRAIN is `drain`, whose fold takes the words from the head. -/
theorem drainAppliesTheQueueInOrder : Obligations.DrainAppliesTheQueueInOrder := by
  refine ⟨fun s => ?_, fun s h => congrArg Host.Outcome.next (drain_nil h),
    fun s w ws h => congrArg Host.Outcome.next (drain_cons h)⟩
  obtain ⟨ns, e, a, d, h⟩ := drain_frame s
  exact ⟨ns, e, a, d, congrArg Host.Outcome.next h⟩

/-- R121, R480: a 64-bit write at offset 0x20 is a push. -/
theorem runEvent_push (s : State) (w : CmdWord) (age : Nat) :
    runEvent (.access { write := true, width := 64, addr := s.cfg.hostBase + 0x20, data := w, age := age }) s =
      hostPush w s :=
  (runEvent_access rfl).trans rfl

/-- Settles O58: a push asks whether the channel is closed. -/
theorem pushAppendsUntilTheClose : Obligations.PushAppendsUntilTheClose := by
  intro s w age
  dsimp only
  rw [runEvent_push, hostPush]
  exact ⟨fun h => if_neg (by simp [h]), fun h => if_pos h, rfl⟩

end Sys2Proof.Machine
end

section
/-! PROOFS. The family of exceptions and reset: no step of any agent ends in a fault (60_exceptions R530, R536), what reset
builds from a configuration (70_reset R580, R581), and that it is a good state (R585). -/

namespace Sys2Proof.Machine

/-! ### No fault (R530, R536)

The model answers `.next` or `.refused` at every leaf, layer by layer from the instruction to the step. -/

section NoFault

variable (f : Fault)

/-- A choice between two outcomes is no fault when neither is. -/
theorem ite_ne_fault {p : Prop} [Decidable p] {o o' : Host.Outcome State Fault Refusal} (h : o ≠ .fault f)
    (h' : o' ≠ .fault f) : (if p then o else o') ≠ .fault f :=
  iteInduction (motive := fun u => u ≠ Host.Outcome.fault f) (fun _ => h) fun _ => h'

theorem onOperandNode_ne_fault (op : Node → Option Node) (s : State) : onOperandNode op s ≠ .fault f := by
  unfold onOperandNode
  cases (operandNode s).bind op <;> nofun

/-- R440, R443: a rejected configuration is a refusal. -/
theorem execEngValidate_ne_fault (s : State) : execEngValidate s ≠ .fault f := by
  unfold execEngValidate
  cases validate s.cfg <;> nofun

/-- R536: FX.RECIP of 0 answers a next state, with the fault recorded in the result. -/
theorem exec_ne_fault (i : Instr) (s : State) : exec i s ≠ .fault f := by
  cases i with
  | fxConv => exact ite_ne_fault f nofun nofun
  | fxSadd => exact ite_ne_fault f nofun nofun
  | fxRecip => exact ite_ne_fault f nofun nofun
  | engValidate => exact execEngValidate_ne_fault f s
  | envStep | oscStep | seqStep | seqTick | vcaStep | mixStep | revStep => exact onOperandNode_ne_fault f _ s
  | _ => nofun

/-- R180, R483, R484: what spells no operation is discarded or refused. -/
theorem issueError_ne_fault (e : DecodeError) (s : State) : issueError e s ≠ .fault f := by
  cases e <;> nofun

theorem runItem_ne_fault (it : Item) (s : State) : runItem it s ≠ .fault f := by
  unfold runItem
  cases decode it with
  | ok i => exact exec_ne_fault f i s
  | error e => exact issueError_ne_fault f e s

theorem issueItem_ne_fault (it : Item) (ops : Operands) (s : State) : issueItem it ops s ≠ .fault f :=
  ite_ne_fault f (runItem_ne_fault f it _) nofun

theorem hostRead32_ne_fault (off age : Nat) (s : State) : hostRead32 off age s ≠ .fault f := by
  unfold hostRead32
  cases regAt off with
  | some r => nofun
  | none => exact ite_ne_fault f nofun nofun

/-- R480: a push after the close is a refusal. -/
theorem hostPush_ne_fault (w : CmdWord) (s : State) : hostPush w s ≠ .fault f := ite_ne_fault f nofun nofun

/-- R122: an access the rule does not list is a refusal. -/
theorem hostAt_ne_fault (a : Access) (off : Nat) (s : State) : hostAt a off s ≠ .fault f := by
  have hwidth32 : (if a.write then hostWrite32 off s else hostRead32 off a.age s) ≠ .fault f :=
    ite_ne_fault f (ite_ne_fault f nofun nofun) (hostRead32_ne_fault f off a.age s)
  have hwidth64 : (if a.write then hostWrite64 off a.data s else hostRead64 off s) ≠ .fault f :=
    ite_ne_fault f (ite_ne_fault f (hostPush_ne_fault f a.data s) nofun) (ite_ne_fault f nofun nofun)
  exact ite_ne_fault f hwidth32 (ite_ne_fault f hwidth64 nofun)

theorem hostAccess_ne_fault (a : Access) (s : State) : hostAccess a s ≠ .fault f :=
  ite_ne_fault f nofun (hostAt_ne_fault f a _ s)

/-- R541: a consume with nothing to take is a refusal. -/
theorem sinkConsume_ne_fault (s : State) : sinkConsume s ≠ .fault f := by
  unfold sinkConsume
  cases s.outStream[s.sinkPos]? <;> nofun

theorem runEvent_ne_fault (e : Event) (s : State) : runEvent e s ≠ .fault f := by
  cases e with
  | strobe => exact exec_ne_fault f .engIterate s
  | access a => exact hostAccess_ne_fault f a s
  | close => nofun
  | consume => exact sinkConsume_ne_fault f s
  | issue it ops => exact issueItem_ne_fault f it ops s

theorem agentStep_ne_fault (s : State) : agentStep s ≠ .fault f := by
  unfold agentStep
  cases s.agenda with
  | nil => exact exec_ne_fault f .engIterate s
  | cons e rest => exact runEvent_ne_fault f e _

/-- R135: seeing the registers makes no fault of an outcome that is none. -/
theorem publishOutcome_ne_fault {o : Host.Outcome State Fault Refusal} (h : o ≠ .fault f) :
    publishOutcome o ≠ .fault f := by
  cases o with
  | fault g => exact h
  | _ => nofun

end NoFault

/-- Settles O7: the agent's action is no fault, and publishing keeps that. -/
theorem noStepEndsInAFault : Obligations.NoStepEndsInAFault :=
  fun s f => publishOutcome_ne_fault f (agentStep_ne_fault f s)

/-! ### The nodes reset builds (R51, R52, R580 (3)) -/

section BuiltNode

variable {c : Config} {nc : NodeCfg} {k : KCfg}

@[simp] theorem nodeKind_buildNode (c : Config) (nc : NodeCfg) : nodeKind (buildNode c nc) = kcfgKind nc.kcfg := by
  cases hk : nc.kcfg <;> simp [nodeKind, buildNode, initBody, kcfgKind, hk]

@[simp] theorem buildNode_ins_length (c : Config) (nc : NodeCfg) :
    (buildNode c nc).ins.length = (inPorts (kcfgKind nc.kcfg)).length := List.length_map _

@[simp] theorem buildNode_outs_length (c : Config) (nc : NodeCfg) :
    (buildNode c nc).outs.length = (outPorts (kcfgKind nc.kcfg)).length := List.length_replicate

/-- R40, R52: the latch of a port holds its configured value, 0 where none is given. -/
theorem buildNode_ins_getElem? {p : Nat} {name : String} (h : (inPorts (kcfgKind nc.kcfg))[p]? = some name) :
    (buildNode c nc).ins[p]? = some ((nc.initIn.lookup name).getD 0) := by
  simp [buildNode, initLatches, initValue, h]

/-- R581: every output register is 0. -/
theorem eq_zero_of_mem_buildNode_outs {v : Word} (h : v ∈ (buildNode c nc).outs) : v = 0 := List.eq_of_mem_replicate h

/-- R56, R58: entry j of GATELEN is the configured one, 0 where none is given. -/
theorem gatelenEntries_getElem? (g : List Word) {j : Nat} (hj : j < 16) :
    (gatelenEntries g)[j]? = some (g.getD j 0) := by
  simp [gatelenEntries, List.getElem?_range hj]

/-- R53: only an ENV node has the fields of one. -/
theorem initBody_eq_env_iff {e : EnvSt} : initBody c k = .env e ↔
    k = .env ∧ e = { state := .off, counter := 0, trigArmed := false, gateOpen := false } := by
  cases k <;> simp [initBody, eq_comm]

/-- R54: only an OSC node has the fields of one. -/
theorem initBody_eq_osc_iff {o : OscSt} : initBody c k = .osc o ↔
    ∃ w, k = .osc w ∧ o = { phase := 0, wave := waveOfName w, custom := List.replicate (nTable c) 0 } := by
  cases k <;> simp [initBody, eq_comm]

/-- R56: only a SEQ node has the fields of one. -/
theorem initBody_eq_seq_iff {q : SeqSt} : initBody c k = .seq q ↔
    ∃ p g, k = .seq p g ∧ q = { beat := 15, elapsed := 0, gateR := false, trigR := false, pattern := p
                                gatelen := gatelenEntries g } := by
  cases k <;> simp [initBody, eq_comm]

/-- R57: only a REV node has taps. -/
theorem initBody_eq_rev_iff {ts : List TapSt} : initBody c k = .rev ts ↔
    ∃ tcs, k = .rev tcs ∧ ts = tcs.map fun tc => { buf := List.replicate tc.len 0, pos := 0 } := by
  cases k <;> simp [initBody, eq_comm]

/-- R51, R52: reset builds a well-formed node where the taps have legal lengths (R440). -/
theorem nodeWf_buildNode (h : badTaps nc = false) : nodeWf c nc (buildNode c nc) := by
  refine ⟨nodeKind_buildNode c nc, ?_, ?_, buildNode_bodyWf c nc h⟩
  · rw [nodeKind_buildNode, buildNode_ins_length]
  · rw [nodeKind_buildNode, buildNode_outs_length]

end BuiltNode

/-! ### The beat after reset (R46) -/

/-- R56: a SEQ node starts on beat 15, so that its first step is step 0. -/
theorem seqBeat?_buildNode (c : Config) (nc : NodeCfg) :
    seqBeat? (buildNode c nc) = if kcfgKind nc.kcfg = .seq then some 15 else none := by
  cases hk : nc.kcfg <;> simp [seqBeat?, buildNode, initBody, kcfgKind, hk]

/-- R46, R581: BEAT_INDEX is 15 where there is a SEQ node, else 0. -/
theorem beatWord_buildNodes (c : Config) (ncs : List NodeCfg) :
    beatWord (ncs.map (buildNode c)) = if ∃ nc ∈ ncs, kcfgKind nc.kcfg = .seq then 15 else 0 := by
  rw [beatWord_eq]
  induction ncs with
  | nil => rfl
  | cons nc ncs ih =>
    rw [List.map_cons, List.findSome?_cons, seqBeat?_buildNode]
    by_cases hseq : kcfgKind nc.kcfg = .seq
    · simp [hseq]
    · simpa [hseq] using ih

/-! ### Reset (R580, R581) -/

theorem resetWith_of_ok {c : Config} {g : Graph} (h : validate c = .ok g) : resetWith c = .ok (State.initial c g) := by
  simp only [resetWith, h]

theorem resetWith_of_error {c : Config} {r : RejectReason} (h : validate c = .error r) : resetWith c = .error r := by
  simp only [resetWith, h]

/-- R49: the block runs, with the channel open and the queue empty. -/
theorem statusWord_initial (c : Config) (g : Graph) : statusWord (State.initial c g) = 5 := by
  simp [statusWord, State.initial]

/-- R135: every window starts with the register's reset value alone. -/
theorem initial_seen_youngest (c : Config) (g : Graph) (r : HostReg) :
    (window (State.initial c g).seen r).getLast? = some (hostReg (State.initial c g) r) := by
  cases r with
  | status => exact congrArg some (statusWord_initial c g).symm
  | _ => rfl

/-- R51: node i is built from entry i of NODES. -/
theorem initial_nodes_getElem? {c : Config} {g : Graph} {i : Nat} {n : Node} {nc : NodeCfg}
    (hn : (State.initial c g).nodes[i]? = some n) (hnc : c.nodes[i]? = some nc) : n = buildNode c nc := by
  simpa [State.initial, hnc, eq_comm] using hn

/-- Settles O10: the fields of the block stand in `State.initial`, and each node is the one `buildNode` makes of its
entry. -/
theorem resetBuildsTheStateOfTheConfiguration : Obligations.ResetBuildsTheStateOfTheConfiguration := by
  refine ⟨fun c g hok => ?_, fun c r herr => resetWith_of_error herr⟩
  refine ⟨State.initial c g, resetWith_of_ok hok, rfl, rfl, rfl, rfl, rfl, rfl, rfl, rfl, rfl, rfl, rfl, rfl,
    statusWord_initial c g, beatWord_buildNodes c c.nodes, List.length_map _, fun i n nc hn hnc => ?_⟩
  obtain rfl := initial_nodes_getElem? hn hnc
  refine ⟨nodeKind_buildNode c nc, ?_, fun v => eq_zero_of_mem_buildNode_outs, fun p name => buildNode_ins_getElem?,
    fun e he => (initBody_eq_env_iff.1 he).2, fun o ho => ?_, fun q hq => ?_, fun ts hts tcs hk => ?_⟩
  · rw [buildNode_ins_length, buildNode_outs_length]
    cases kcfgKind nc.kcfg <;> rfl
  · obtain ⟨w, hk, rfl⟩ := initBody_eq_osc_iff.1 ho
    refine ⟨rfl, rfl, fun w' hk' => ?_⟩
    cases hk.symm.trans hk'
    rfl
  · obtain ⟨p, gl, hk, rfl⟩ := initBody_eq_seq_iff.1 hq
    refine ⟨rfl, rfl, rfl, rfl, gatelenEntries_wf gl, fun p' gl' hk' => ?_⟩
    cases hk.symm.trans hk'
    exact ⟨rfl, fun j => gatelenEntries_getElem? gl⟩
  · obtain ⟨tcs', hk', rfl⟩ := initBody_eq_rev_iff.1 hts
    cases hk.symm.trans hk'
    rfl

/-! ### The invariant after reset (R585) -/

/-- R440: an accepted configuration has passed the checks of the tick period and of the taps. -/
theorem checks_of_validate {c : Config} {g : Graph} (h : validate c = .ok g) :
    c.tickPeriod ≠ 0 ∧ ∀ nc ∈ c.nodes, badTaps nc = false := by
  unfold validate at h
  repeat' split at h
  all_goals cases h
  exact ⟨‹¬ c.tickPeriod = 0›, by simpa using ‹¬ c.nodes.any badTaps = true›⟩

/-- R11: a legal BUFFER_LEN is at least 1. -/
theorem bufferLen_pos_of_legalArgs {c : Config} (h : legalArgs c) : 0 < c.bufferLen := by
  obtain ⟨-, -, -, -, -, hbuf, -⟩ := h
  exact hbuf

/-- R581, R585: reset leaves a good state whenever the configuration is accepted and its arguments are legal. -/
theorem inv_initial {c : Config} {g : Graph} (hok : validate c = .ok g) (hlegal : legalArgs c) :
    Inv (State.initial c g) := by
  obtain ⟨htick, htaps⟩ := checks_of_validate hok
  exact
    { accepted := hok
      legal := hlegal
      nodes := List.forall₂_map_right_iff.2 (List.forall₂_same.2 fun nc hnc => nodeWf_buildNode (htaps nc hnc))
      tick := Nat.pos_of_ne_zero fun hzero => htick (BitVec.eq_of_toNat_eq hzero)
      buf := bufferLen_pos_of_legalArgs hlegal
      sample := Nat.two_pow_pos 16
      beat := beatWord_toNat_lt _
      err := Nat.two_pow_pos 6
      halted := nofun
      sink := Nat.le_refl 0
      seen := initial_seen_youngest c g }

/-- R585: every entry of the recommended INC_ROM is a 32-bit number. -/
theorem incRomValues_lt : ∀ v ∈ incRomValues, v < 2 ^ 32 := by
  have hall : (incRomValues.all fun v => decide (v < 2 ^ 32)) = true := by decide
  simpa using hall

/-- R11: the values of log 1 are legal; BUFFER_LEN, which is OPEN, is a successor. -/
theorem legalArgs_resetConfig : legalArgs resetConfig := by
  obtain ⟨hsaw, htri, hsquare, hnoise⟩ := computedRoms_wf 8
  exact ⟨by decide, by decide, by decide, by decide, by decide, Nat.succ_pos _, sineRom_wf, hsaw, htri, hsquare, hnoise,
    incRom_length, incRomValues_lt⟩

/-- R440: the configuration of log 1 is accepted. -/
theorem validate_resetConfig : validate resetConfig = .ok (graphOf resetConfig) := rfl

/-- Settles O8: the configuration of log 1 is one of those `inv_initial` speaks of. -/
theorem resetStateIsGood : Obligations.ResetStateIsGood := inv_initial validate_resetConfig legalArgs_resetConfig

end Sys2Proof.Machine
end
